-- ==== Sys2Proof/Word.lean ====
section
/-! DEFINITION. The word types of FGF8 (00_scope.md R6: every value is an unsigned bit vector of a stated width). -/

namespace Sys2Proof

/-- A byte: a field element, an index, a count or a data byte (R6). Bit `i` is the coefficient of x^i. -/
abbrev Byte := BitVec 8

/-- A command word (30_encoding.md R60). -/
abbrev CmdWord := BitVec 32

/-- A response word (30_encoding.md R63). -/
abbrev RspWord := BitVec 16

end Sys2Proof
end

