-- ==== Sys2Proof/Config.lean ====
section
/-! DEFINITION. What an implementation of FGF8 fixes (00_scope.md R5) and the free values the spec leaves open. -/

namespace Sys2Proof

/-- The five address spaces of 20_memory.md R40. -/
inductive Space where
  | coef
  | xs
  | ys
  | mult
  | invt
  deriving DecidableEq, Repr

/-- The free byte that an entry of a space holds when nothing has written it since the last reset
(10_state.md R35, 93_implementation_defined.md U3, U4): "any value, drawn per entry at reset and then stable".
The arguments are the space, the number of the draw (State's `epoch`) and the entry's index.
It has no body, so nothing can be proved of its value. Assumption log entries 3 and 5. -/
opaque Config.unspecifiedByte : Space → Nat → Nat → Byte

/-- MAC_DEPTH less one: R5 leaves MAC_DEPTH open, an integer of at least 1. Assumption log entry 13. -/
opaque Config.macDepthLessOne : Nat

/-- MAC_DEPTH, the pipeline depth of the shared multiplier (R5, 70_reset_and_hazards.md R190): no functional effect. -/
def Config.macDepth : Nat := Config.macDepthLessOne + 1

/-- SKIP_ZERO_Y (R5, 42_poly.md R129): this hardware always skips a term whose y is zero. -/
def Config.skipZeroY : Bool := true

/-- The low byte of the reduction polynomial x^8+x^4+x^3+x+1 (R5, R6). -/
def Config.polyLow : Byte := 0x1B#8

/-- The exponent of the inverse (R5). -/
def Config.invExp : Byte := 254#8

/-- The depth of COEF, XS, YS and INVT, and the number of rows and of columns of MULT (R5). -/
def Config.depth : Nat := 256

end Sys2Proof
end

