-- ==== Sys2Proof/Syntax.lean ====
section
/-! DEFINITION. The 21 commands of FGF8 (30_encoding.md R65), their formats (R61) and the four fields of a word (R60). -/

namespace Sys2Proof

/-- The three formats of R61: which operand fields a command uses. -/
inductive Format where
  | ab
  | a
  | n
  deriving DecidableEq, Repr

/-- The four 8-bit fields of a command word (R60). -/
structure Fields where
  op : Byte
  a : Byte
  b : Byte
  z : Byte
  deriving DecidableEq, Repr

/-- The commands, one constructor per row of spec/opcode_table.json, in its order. -/
inductive Instr where
  | add (a b : Byte)
  | sub (a b : Byte)
  | mul (a b : Byte)
  | inv (a : Byte)
  | div (a b : Byte)
  | mulb (a b : Byte)
  | invb (a : Byte)
  | setdeg (d : Byte)
  | ldc (i v : Byte)
  | rdc (i : Byte)
  | setns (n : Byte)
  | ldx (k v : Byte)
  | ldy (k v : Byte)
  | rdx (k : Byte)
  | rdy (k : Byte)
  | rddeg
  | rdns
  | eval (x : Byte)
  | meval
  | interp (x : Byte)
  | rdst
  deriving DecidableEq, Repr

end Sys2Proof
end

