-- ==== Sys2Proof/WellFormed.lean ====
section
/-! DEFINITION. What makes the fields of a command word well-formed (30_encoding.md R61): the reserved ones are zero. -/

namespace Sys2Proof

/-- R61: the fields a format does not use are zero. `Z` is reserved in every format, `B` in `A` and `N`, `A` in `N`. -/
def Fields.wellFormed (fmt : Format) (f : Fields) : Bool :=
  match fmt with
  | .ab => f.z == 0#8
  | .a => f.z == 0#8 && f.b == 0#8
  | .n => f.z == 0#8 && f.b == 0#8 && f.a == 0#8

end Sys2Proof
end

