-- ==== Sys2Proof/Decode.lean ====
section
/-! DEFINITION. The decoder of 30_encoding.md R66, total on every word and rejecting by name, and the encoder of R65. -/

namespace Sys2Proof

/-- Why a word is illegal (30_encoding.md R69), in the order in which R66 asks; `short` is a byte sequence with fewer
than the four bytes of a word. -/
inductive IllegalWord where
  | unknownOpcode
  | reservedZ
  | reservedB
  | reservedA
  | short
  deriving DecidableEq, Repr

/-- The four fields of a word (R60): OP 31:24, A 23:16, B 15:8, Z 7:0. -/
def fieldsOf (w : CmdWord) : Fields :=
  { op := w.extractLsb' 24 8, a := w.extractLsb' 16 8, b := w.extractLsb' 8 8, z := w.extractLsb' 0 8 }

/-- The word with the given fields (R60); `++` puts its left operand in the more significant bits. -/
def wordOf (f : Fields) : CmdWord := f.op ++ f.a ++ f.b ++ f.z

/-- The opcode map of R65: an opcode's format and the command its operand fields give. -/
def opcodeRow (op : Byte) : Option (Format × (Byte → Byte → Instr)) :=
  if op = 0x01#8 then some (.ab, fun a b => .add a b)
  else if op = 0x02#8 then some (.ab, fun a b => .sub a b)
  else if op = 0x03#8 then some (.ab, fun a b => .mul a b)
  else if op = 0x04#8 then some (.a, fun a _ => .inv a)
  else if op = 0x05#8 then some (.ab, fun a b => .div a b)
  else if op = 0x06#8 then some (.ab, fun a b => .mulb a b)
  else if op = 0x07#8 then some (.a, fun a _ => .invb a)
  else if op = 0x10#8 then some (.a, fun a _ => .setdeg a)
  else if op = 0x11#8 then some (.ab, fun a b => .ldc a b)
  else if op = 0x12#8 then some (.a, fun a _ => .rdc a)
  else if op = 0x13#8 then some (.a, fun a _ => .setns a)
  else if op = 0x14#8 then some (.ab, fun a b => .ldx a b)
  else if op = 0x15#8 then some (.ab, fun a b => .ldy a b)
  else if op = 0x16#8 then some (.a, fun a _ => .rdx a)
  else if op = 0x17#8 then some (.a, fun a _ => .rdy a)
  else if op = 0x18#8 then some (.n, fun _ _ => .rddeg)
  else if op = 0x19#8 then some (.n, fun _ _ => .rdns)
  else if op = 0x20#8 then some (.a, fun a _ => .eval a)
  else if op = 0x21#8 then some (.n, fun _ _ => .meval)
  else if op = 0x22#8 then some (.a, fun a _ => .interp a)
  else if op = 0x30#8 then some (.n, fun _ _ => .rdst)
  else none

/-- The decoding algorithm of R66 on the four fields. Decoding reads no state. -/
def decodeFields (f : Fields) : Except IllegalWord Instr :=
  match opcodeRow f.op with
  | none => .error .unknownOpcode
  | some (fmt, mk) =>
    if f.z ≠ 0#8 then .error .reservedZ
    else if fmt ≠ .ab ∧ f.b ≠ 0#8 then .error .reservedB
    else if fmt = .n ∧ f.a ≠ 0#8 then .error .reservedA
    else .ok (mk f.a f.b)

/-- The decoding algorithm of R66, total on all 2^32 words. -/
def decode (w : CmdWord) : Except IllegalWord Instr := decodeFields (fieldsOf w)

/-- A command word, legal or not, as a byte sequence: opcode, `A`, `B`, reserved, the most significant byte first
(20_memory.md R42). -/
def cmdBytes (w : CmdWord) : List Byte := [(fieldsOf w).op, (fieldsOf w).a, (fieldsOf w).b, (fieldsOf w).z]

/-- The command word at the head of a byte sequence (R42), and the bytes after it. -/
def cmdOfBytes : List Byte → Option (CmdWord × List Byte)
  | op :: a :: b :: z :: rest => some (wordOf { op := op, a := a, b := b, z := z }, rest)
  | _ => none

/-- A response word as a byte sequence: status, data, the most significant byte first (R42, 92_eei_decisions.md D24). -/
def rspBytes (r : RspWord) : List Byte := [r.extractLsb' 8 8, r.extractLsb' 0 8]

/-- The response word at the head of a byte sequence (R42), and the bytes after it. -/
def rspOfBytes : List Byte → Option (RspWord × List Byte)
  | st :: data :: rest => some (st ++ data, rest)
  | _ => none

/-- The command at the head of a byte sequence (R42), and the bytes after it. -/
def decodeBytes (bs : List Byte) : Except IllegalWord (Instr × List Byte) :=
  match cmdOfBytes bs with
  | none => .error .short
  | some (w, rest) =>
    match decode w with
    | .ok i => .ok (i, rest)
    | .error e => .error e

/-- What the decoder reads from the word whose bits are `w`, numbered as spec/opcode_table.json numbers them (bit 0 the
least significant of the one 32-bit word, 30_encoding.md R60); a row shorter than the word has zeros above it. -/
def decodeTableWord (nbits w : Nat) : Option Instr :=
  if nbits ≤ 32 then
    match decode (BitVec.ofNat 32 (w % 2 ^ nbits)) with
    | .ok i => some i
    | .error _ => none
  else none

/-- The fields of a command, written from the rows of R65 and the formats of R61: reserved fields are zero (R71). -/
def encodeFields : Instr → Fields
  | .add a b => ⟨0x01#8, a, b, 0#8⟩
  | .sub a b => ⟨0x02#8, a, b, 0#8⟩
  | .mul a b => ⟨0x03#8, a, b, 0#8⟩
  | .inv a => ⟨0x04#8, a, 0#8, 0#8⟩
  | .div a b => ⟨0x05#8, a, b, 0#8⟩
  | .mulb a b => ⟨0x06#8, a, b, 0#8⟩
  | .invb a => ⟨0x07#8, a, 0#8, 0#8⟩
  | .setdeg d => ⟨0x10#8, d, 0#8, 0#8⟩
  | .ldc i v => ⟨0x11#8, i, v, 0#8⟩
  | .rdc i => ⟨0x12#8, i, 0#8, 0#8⟩
  | .setns n => ⟨0x13#8, n, 0#8, 0#8⟩
  | .ldx k v => ⟨0x14#8, k, v, 0#8⟩
  | .ldy k v => ⟨0x15#8, k, v, 0#8⟩
  | .rdx k => ⟨0x16#8, k, 0#8, 0#8⟩
  | .rdy k => ⟨0x17#8, k, 0#8, 0#8⟩
  | .rddeg => ⟨0x18#8, 0#8, 0#8, 0#8⟩
  | .rdns => ⟨0x19#8, 0#8, 0#8, 0#8⟩
  | .eval x => ⟨0x20#8, x, 0#8, 0#8⟩
  | .meval => ⟨0x21#8, 0#8, 0#8, 0#8⟩
  | .interp x => ⟨0x22#8, x, 0#8, 0#8⟩
  | .rdst => ⟨0x30#8, 0#8, 0#8, 0#8⟩

/-- The command word of a command (R65). -/
def encode (i : Instr) : CmdWord := wordOf (encodeFields i)

/-- The four bytes of a command (20_memory.md R42). -/
def encodeBytes (i : Instr) : List Byte := cmdBytes (encode i)

/-- The format of a command (R61's table). -/
def formatOf : Instr → Format
  | .add _ _ => .ab
  | .sub _ _ => .ab
  | .mul _ _ => .ab
  | .inv _ => .a
  | .div _ _ => .ab
  | .mulb _ _ => .ab
  | .invb _ => .a
  | .setdeg _ => .a
  | .ldc _ _ => .ab
  | .rdc _ => .a
  | .setns _ => .a
  | .ldx _ _ => .ab
  | .ldy _ _ => .ab
  | .rdx _ => .a
  | .rdy _ => .a
  | .rddeg => .n
  | .rdns => .n
  | .eval _ => .a
  | .meval => .n
  | .interp _ => .a
  | .rdst => .n

/-- A command is well-formed when its word's fields are (R61). Operands are bytes by their type, so every command is. -/
def Instr.wellFormed (i : Instr) : Bool := (encodeFields i).wellFormed (formatOf i)

/-- A row of spec/opcode_table.json: the bits the decoder compares and what they must be (R61: match = OP << 24). -/
structure TableRow where
  name : String
  fmt : Format
  pattern : CmdWord
  mask : CmdWord
  deriving DecidableEq, Repr

/-- The mask of each format (R61's table). -/
def maskOf : Format → CmdWord
  | .ab => 0xFF0000FF#32
  | .a => 0xFF00FFFF#32
  | .n => 0xFFFFFFFF#32

/-- The field rows of the table (R65). -/
def fieldRows : List TableRow :=
  [⟨"ADD", .ab, 0x01000000#32, 0xFF0000FF#32⟩, ⟨"SUB", .ab, 0x02000000#32, 0xFF0000FF#32⟩,
   ⟨"MUL", .ab, 0x03000000#32, 0xFF0000FF#32⟩, ⟨"INV", .a, 0x04000000#32, 0xFF00FFFF#32⟩,
   ⟨"DIV", .ab, 0x05000000#32, 0xFF0000FF#32⟩, ⟨"MULB", .ab, 0x06000000#32, 0xFF0000FF#32⟩,
   ⟨"INVB", .a, 0x07000000#32, 0xFF00FFFF#32⟩]

/-- The polynomial and sample memory rows of the table (R65). -/
def memoryRows : List TableRow :=
  [⟨"SETDEG", .a, 0x10000000#32, 0xFF00FFFF#32⟩, ⟨"LDC", .ab, 0x11000000#32, 0xFF0000FF#32⟩,
   ⟨"RDC", .a, 0x12000000#32, 0xFF00FFFF#32⟩, ⟨"SETNS", .a, 0x13000000#32, 0xFF00FFFF#32⟩,
   ⟨"LDX", .ab, 0x14000000#32, 0xFF0000FF#32⟩, ⟨"LDY", .ab, 0x15000000#32, 0xFF0000FF#32⟩,
   ⟨"RDX", .a, 0x16000000#32, 0xFF00FFFF#32⟩, ⟨"RDY", .a, 0x17000000#32, 0xFF00FFFF#32⟩,
   ⟨"RDDEG", .n, 0x18000000#32, 0xFFFFFFFF#32⟩, ⟨"RDNS", .n, 0x19000000#32, 0xFFFFFFFF#32⟩]

/-- The engine and system rows of the table (R65). -/
def engineRows : List TableRow :=
  [⟨"EVAL", .a, 0x20000000#32, 0xFF00FFFF#32⟩, ⟨"MEVAL", .n, 0x21000000#32, 0xFFFFFFFF#32⟩,
   ⟨"INTERP", .a, 0x22000000#32, 0xFF00FFFF#32⟩, ⟨"RDST", .n, 0x30000000#32, 0xFFFFFFFF#32⟩]

/-- The 21 rows of the opcode table (R65). -/
def opcodeTable : List TableRow := fieldRows ++ memoryRows ++ engineRows

/-- The mnemonic of a command (R65). -/
def mnemonicOf : Instr → String
  | .add _ _ => "ADD"
  | .sub _ _ => "SUB"
  | .mul _ _ => "MUL"
  | .inv _ => "INV"
  | .div _ _ => "DIV"
  | .mulb _ _ => "MULB"
  | .invb _ => "INVB"
  | .setdeg _ => "SETDEG"
  | .ldc _ _ => "LDC"
  | .rdc _ => "RDC"
  | .setns _ => "SETNS"
  | .ldx _ _ => "LDX"
  | .ldy _ _ => "LDY"
  | .rdx _ => "RDX"
  | .rdy _ => "RDY"
  | .rddeg => "RDDEG"
  | .rdns => "RDNS"
  | .eval _ => "EVAL"
  | .meval => "MEVAL"
  | .interp _ => "INTERP"
  | .rdst => "RDST"

end Sys2Proof
end

