-- ==== Sys2Proof/Machine/State.lean ====
section
/-! DEFINITION. The state of FGF8 (10_state.md R20, R34, R35; 20_memory.md R47, R48) as plain data, and its value at reset. -/

namespace Sys2Proof.Machine

/-- A byte memory in canonical form (`Memory.wf`): addresses strictly rising, all below 256. An address that is not
listed holds no byte that anything has written (assumption log entry 3). -/
abbrev Memory := List Host.Cell

/-- The state of the unit, the wires of its ports, and the model's own fields `cmdIn`, `rspOut`, `epoch`. -/
structure State where
  /-- `DEG`, the degree of the polynomial in `COEF` (R21). -/
  deg : Byte
  /-- `NS`, the number of live samples or points (R22). -/
  ns : Byte
  /-- `COEF`, the coefficient memory (R24). -/
  coef : Memory
  /-- `XS`, the x-sample memory (R25). -/
  xs : Memory
  /-- `YS`, the y-sample memory (R26). -/
  ys : Memory
  /-- `MULT`, the multiplication table, a list of rows (R27); no rows before the table builder's step. -/
  mult : List (List Byte)
  /-- `INVT`, the inverse table (R28); no entries before the table builder's step. -/
  invt : List Byte
  /-- `STATUS`: bit 0 READY, bit 1 DOMERR, bit 2 ILLERR (R29). -/
  status : Byte
  /-- The command word accepted and not yet executed (R34, R47). -/
  cmd : Option CmdWord
  /-- The response word presented and not yet transferred: `rsp_valid` and `rsp_data` (R34, R48). -/
  rsp : Option RspWord
  /-- The input pin `rst` (R48). -/
  rst : Bool
  /-- The input pin `rsp_ready` (R48). -/
  rspReady : Bool
  /-- The words the host has yet to get accepted; the head is on `cmd_data`, with `cmd_valid` high (log entry 1). -/
  cmdIn : List CmdWord
  /-- The responses the host has received, oldest first (log entry 1). -/
  rspOut : List RspWord
  /-- The number of the draw of unspecified bytes in force (log entry 4). -/
  epoch : Nat
  deriving DecidableEq, Repr

/-- No constructor: nothing stops this machine. Its two errors are outcomes of a command, reported in the response
(60_exceptions.md R150 to R157), and 93_implementation_defined.md says nothing is UNPREDICTABLE. Safe: every run goes
on as the spec says it does. -/
inductive Fault where
  deriving DecidableEq, Repr

/-- Why a step has no meaning. -/
inductive Refusal where
  /-- Raised by an arm of `exec` whose command has no meaning yet; no arm is so. Safe: the model stops. -/
  | notModelled (mnemonic : String)
  deriving DecidableEq, Repr

/-- The moves of the host (00_scope.md R9, 60_exceptions.md R167), each of which may land between any two steps. -/
inductive HostMove where
  /-- Present one more command word. -/
  | present (w : CmdWord)
  /-- Drive `rsp_ready`. -/
  | driveRspReady (level : Bool)
  /-- Drive `rst`. -/
  | driveRst (level : Bool)
  deriving DecidableEq, Repr

/-- Which agent moves in a step, and on what (00_scope.md R9). -/
inductive Phase where
  /-- `rst` is high (70_reset_and_hazards.md R180). -/
  | reset
  /-- The table builder's step (R182). -/
  | build
  /-- A response is presented and the host accepts it (20_memory.md R48). -/
  | transfer (r : RspWord)
  /-- A response is presented and the host does not accept it yet (R48). -/
  | waitHost
  /-- A command is pending (R9). -/
  | execute (w : CmdWord)
  /-- The command port transfers the word the host presents (R47). -/
  | accept (w : CmdWord) (rest : List CmdWord)
  /-- Nothing to do (60_exceptions.md R166). -/
  | idle
  deriving DecidableEq, Repr

/-- The machine right after reset (10_state.md R35). `rst`, `rspReady`, `cmdIn`, `rspOut` and `epoch` are the model's
choice (log entries 4 and 9). -/
def State.reset : State :=
  { deg := 0#8, ns := 0#8, coef := [], xs := [], ys := [], mult := [], invt := [], status := 0#8,
    cmd := none, rsp := none, rst := false, rspReady := true, cmdIn := [], rspOut := [], epoch := 0 }

end Sys2Proof.Machine
end

