-- ==== Sys2Proof/Machine/Flags.lean ====
section
/-! DEFINITION. The status register and its flags (10_state.md R29 to R33). -/

namespace Sys2Proof.Machine

/-- The bit of READY in STATUS (R29). -/
def readyBit : Byte := 0x01#8

/-- The bit of DOMERR in STATUS (R29). -/
def domerrBit : Byte := 0x02#8

/-- The bit of ILLERR in STATUS (R29). -/
def illerrBit : Byte := 0x04#8

/-- The bits of STATUS that exist; bits 7:3 are hardwired 0 (R29). -/
def statusMask : Byte := 0x07#8

/-- `STATUS.READY` (R30). -/
def State.ready (s : State) : Bool := s.status.getLsbD 0

/-- `STATUS.DOMERR` (R31). -/
def State.domerr (s : State) : Bool := s.status.getLsbD 1

/-- `STATUS.ILLERR` (R32). -/
def State.illerr (s : State) : Bool := s.status.getLsbD 2

/-- STATUS as `RDST` reads it: the reserved bits read as 0 (R29, R140). -/
def State.statusByte (s : State) : Byte := s.status &&& statusMask

/-- `STATUS.READY <- 1` (R182). -/
def State.setReady (s : State) : State := { s with status := s.status ||| readyBit }

/-- `STATUS.DOMERR <- 1` (60_exceptions.md R152). -/
def State.setDomerr (s : State) : State := { s with status := s.status ||| domerrBit }

/-- `STATUS.ILLERR <- 1` (R151). -/
def State.setIllerr (s : State) : State := { s with status := s.status ||| illerrBit }

end Sys2Proof.Machine
end

