-- ==== Sys2Proof/Machine/Gf.lean ====
section
/-! DEFINITION. The field functions of 40_field.md R80 to R83 that need no table, and the contents of the tables (R87). -/

namespace Sys2Proof.Machine

/-- `gf_add(a, b)`, and subtraction: bitwise exclusive-or (R80). -/
def gfAdd (a b : Byte) : Byte := a ^^^ b

/-- One shift of the running copy (R81): left by one, reduced by 0x1B when bit 7 is shifted out. -/
def xtime (r : Byte) : Byte :=
  if r.getLsbD 7 then (r <<< 1) ^^^ Config.polyLow else r <<< 1

/-- The loop of R81 with `n` iterations left, at bit `i` of `a`. -/
def mulbLoop (a : Byte) : Nat → Nat → Byte → Byte → Byte
  | 0, _, _, acc => acc
  | n + 1, i, r, acc => mulbLoop a n (i + 1) (xtime r) (if a.getLsbD i then acc ^^^ r else acc)

/-- `gf_mulb(a, b)`: the bit-serial product (R81). -/
def gfMulb (a b : Byte) : Byte := mulbLoop a 8 0 b 0#8

/-- The loop of R83 with `n` iterations left, at bit `i` of the exponent. -/
def powLoop (e : Byte) : Nat → Nat → Byte → Byte → Byte
  | 0, _, _, res => res
  | n + 1, i, base, res =>
    powLoop e n (i + 1) (gfMulb base base) (if e.getLsbD i then gfMulb res base else res)

/-- `gf_pow254(a)`: square-and-multiply over the 8 bits of 254, bit 0 first (R83). -/
def gfPow254 (a : Byte) : Byte := powLoop Config.invExp 8 0 a 0x01#8

/-- Row `a` of MULT as the table builder fills it (R87). -/
def builtRow (a : Byte) : List Byte :=
  (List.range Config.depth).map fun b => gfMulb a (BitVec.ofNat 8 b)

/-- MULT as the table builder fills it (R87): row `a`, column `b` holds `gf_mulb(a, b)`. -/
def builtMult : List (List Byte) :=
  (List.range Config.depth).map fun a => builtRow (BitVec.ofNat 8 a)

/-- INVT as the table builder fills it (R87): entry `a` holds `gf_pow254(a)`, so entry 0 holds 0x00 (R28). -/
def builtInvt : List Byte :=
  (List.range Config.depth).map fun a => gfPow254 (BitVec.ofNat 8 a)

end Sys2Proof.Machine
end

