-- ==== Sys2Proof/Machine/Ops.lean ====
section
/-! DEFINITION. The named operations over memories, tables, registers and ports; raising an error; reset; the builder. -/

namespace Sys2Proof.Machine

/-! ### One memory (20_memory.md R40, R41) -/

/-- The byte written at an address, if any. -/
def Memory.read? : Memory → Nat → Option Byte
  | [], _ => none
  | c :: m, i => if c.1 = i then some c.2 else Memory.read? m i

/-- Write one byte, keeping the addresses strictly rising. -/
def Memory.write : Memory → Nat → Byte → Memory
  | [], i, v => [(i, v)]
  | c :: m, i, v =>
    if i < c.1 then (i, v) :: c :: m
    else if i = c.1 then (i, v) :: m
    else c :: Memory.write m i v

/-- Write a run of bytes at rising addresses from `i`. -/
def Memory.writeRun : Memory → Nat → List Byte → Memory
  | m, _, [] => m
  | m, i, v :: vs => Memory.writeRun (Memory.write m i v) (i + 1) vs

/-- The canonical form from address `lo` on: addresses strictly rising, at least `lo`, inside the memory's depth. -/
def Memory.wfFrom : Nat → Memory → Bool
  | _, [] => true
  | lo, c :: m => decide (lo ≤ c.1) && decide (c.1 < Config.depth) && Memory.wfFrom (c.1 + 1) m

/-- The canonical form of a memory. -/
def Memory.wf (m : Memory) : Bool := Memory.wfFrom 0 m

/-! ### The five address spaces (R40) -/

/-- The byte that a write has put at an index of a space, if any. MULT's index is 256 times the row plus the column. -/
def State.stored? (S : Space) (i : Nat) (s : State) : Option Byte :=
  match S with
  | .coef => s.coef.read? i
  | .xs => s.xs.read? i
  | .ys => s.ys.read? i
  | .mult => (s.mult[i / Config.depth]?).bind fun row => row[i % Config.depth]?
  | .invt => s.invt[i]?

/-- `MemRead(S:i, 1)` (00_scope.md R7): what was written, else the unspecified byte the entry holds (10_state.md R35). -/
def State.memRead (S : Space) (i : Nat) (s : State) : Byte :=
  (s.stored? S i).getD (Config.unspecifiedByte S s.epoch i)

/-- `COEF[i] <- v`. -/
def State.writeCoef (i : Nat) (v : Byte) (s : State) : State := { s with coef := s.coef.write i v }

/-- `XS[k] <- v`. -/
def State.writeXs (k : Nat) (v : Byte) (s : State) : State := { s with xs := s.xs.write k v }

/-- `YS[k] <- v`. -/
def State.writeYs (k : Nat) (v : Byte) (s : State) : State := { s with ys := s.ys.write k v }

/-- `YS[0] <- v0`, `YS[1] <- v1`, and so on (42_poly.md R124). -/
def State.writeYsRun (vs : List Byte) (s : State) : State := { s with ys := s.ys.writeRun 0 vs }

/-- `DEG <- d` (41_polymem.md R100). -/
def State.setDeg (d : Byte) (s : State) : State := { s with deg := d }

/-- `NS <- n` (R103). -/
def State.setNs (n : Byte) (s : State) : State := { s with ns := n }

/-! ### Responses and errors (30_encoding.md R63, R64; 60_exceptions.md R151, R152) -/

/-- The status code `OK` (R64). -/
def stOk : Byte := 0x00#8

/-- The status code `ERR_ILLEGAL` (R64). -/
def stIllegal : Byte := 0x01#8

/-- The status code `ERR_DOMAIN` (R64). -/
def stDomain : Byte := 0x02#8

/-- The response word with a status code and a data byte (R63). -/
def rspWord (st data : Byte) : RspWord := st ++ data

/-- `respond(status, data)` (00_scope.md R7): present the response and end the command in flight. -/
def State.respond (st data : Byte) (s : State) : State :=
  { s with cmd := none, rsp := some (rspWord st data) }

/-- The response of a command that completes with a result byte (R64). -/
def State.respondOk (data : Byte) (s : State) : State := s.respond stOk data

/-- The response of a command that completes without a result byte (R64, 92_eei_decisions.md D29). -/
def State.respondDone (s : State) : State := s.respond stOk 0x00#8

/-- `raise IllegalCommand` (R151): the sticky flag and the response, and nothing else. -/
def State.raiseIllegal (s : State) : State := s.setIllerr.respond stIllegal 0x00#8

/-- `raise DomainError` (R152): the sticky flag and the response, and nothing else. -/
def State.raiseDomain (s : State) : State := s.setDomerr.respond stDomain 0x00#8

/-- The outcome of a command whose result is a byte, or none where a field function raised DomainError. -/
def State.respondResult (r : Option Byte) (s : State) : State :=
  match r with
  | some v => s.respondOk v
  | none => s.raiseDomain

/-! ### Reset and the table builder (70_reset_and_hazards.md R180 to R182) -/

/-- The reset state of 10_state.md R35: a command in flight and a response being presented are dropped (R181), the
memories and tables hold a new draw of unspecified bytes. The host's wires, the words it has yet to get accepted and the
responses it has received are not the unit's to clear (log entry 10). -/
def State.takeReset (s : State) : State :=
  { s with deg := 0#8, ns := 0#8, coef := [], xs := [], ys := [], mult := [], invt := [], status := 0#8,
           cmd := none, rsp := none, epoch := s.epoch + 1 }

/-- The table builder's step (R182): both tables take their contents (R27, R28, R87) and READY becomes 1. -/
def State.buildTables (s : State) : State := ({ s with mult := builtMult, invt := builtInvt } : State).setReady

/-! ### The ports (20_memory.md R47, R48) -/

/-- The output pin `ready` (R48). -/
def State.readyPin (s : State) : Bool := s.ready

/-- The output pin `cmd_ready` (R47). -/
def State.cmdReady (s : State) : Bool := s.ready && s.cmd.isNone && s.rsp.isNone && !s.rst

/-- The input pin `cmd_valid` (R48). -/
def State.cmdValid (s : State) : Bool := !s.cmdIn.isEmpty

/-- The output pin `rsp_valid` (R48). -/
def State.rspValid (s : State) : Bool := s.rsp.isSome

/-- The command transfer (R47): the word at the head of the host's words is in flight. -/
def State.acceptCommand (w : CmdWord) (rest : List CmdWord) (s : State) : State :=
  { s with cmd := some w, cmdIn := rest }

/-- The response transfer (R48): the host has the word. -/
def State.transferResponse (r : RspWord) (s : State) : State :=
  { s with rsp := none, rspOut := s.rspOut ++ [r] }

/-- Which agent moves next (00_scope.md R9; log entry 7). -/
def State.phase (s : State) : Phase :=
  if s.rst then .reset
  else if !s.ready then .build
  else match s.rsp with
    | some r => if s.rspReady then .transfer r else .waitHost
    | none =>
      match s.cmd with
      | some w => .execute w
      | none =>
        match s.cmdIn with
        | w :: rest => .accept w rest
        | [] => .idle

/-- A move of the host (60_exceptions.md R167). A word is presented after those already waiting, so that `cmd_data` does
not change before its transfer; the host has no move that withdraws a word (R48). -/
def State.hostMove (m : HostMove) (s : State) : State :=
  match m with
  | .present w => { s with cmdIn := s.cmdIn ++ [w] }
  | .driveRspReady level => { s with rspReady := level }
  | .driveRst level => { s with rst := level }

/-- The state with a word in flight that the very next step executes: `rst` low, the tables built if they are not, no
response presented (log entry 2). -/
def State.placeCommand (w : CmdWord) (s : State) : State :=
  { (if s.ready then s else s.buildTables) with rst := false, rsp := none, cmd := some w }

end Sys2Proof.Machine
end

