-- ==== Sys2Proof/Machine/Operands.lean ====
section
/-! DEFINITION. The operand forms (30_encoding.md R62, 41_polymem.md R110): immediate bytes and "index = A"; the entries
that DEG and NS select (10_state.md R21, R22); the table lookups (40_field.md R84 to R86). -/

namespace Sys2Proof.Machine

/-- The only addressing mode: the operand byte is the index (R110), an unsigned value (R62). -/
def effIndex (a : Byte) : Nat := a.toNat

/-- `COEF[A]`. -/
def State.coefAt (a : Byte) (s : State) : Byte := s.memRead .coef (effIndex a)

/-- `XS[A]`. -/
def State.xsAt (a : Byte) (s : State) : Byte := s.memRead .xs (effIndex a)

/-- `YS[A]`. -/
def State.ysAt (a : Byte) (s : State) : Byte := s.memRead .ys (effIndex a)

/-- The number of live samples, NS as an integer (R22). -/
def State.liveCount (s : State) : Nat := s.ns.toNat

/-- The degree, DEG as an integer (R21). -/
def State.degree (s : State) : Nat := s.deg.toNat

/-- The index of row `a`, column `b` in MULT's space (20_memory.md R40). -/
def multIndex (a b : Byte) : Nat := Config.depth * a.toNat + b.toNat

/-- `gf_mul(a, b) = MULT[a][b]`, the table path of multiplication (40_field.md R84). -/
def State.gfMul (s : State) (a b : Byte) : Byte := s.memRead .mult (multIndex a b)

/-- `gf_inv(a)`, the table path of the inverse; none is DomainError, found before the table is read (R85). -/
def State.gfInv (s : State) (a : Byte) : Option Byte :=
  if a = 0x00#8 then none else some (s.memRead .invt (effIndex a))

/-- `gf_div(a, b)`; none is DomainError, checked first for every `a`; the quotient is always computed and the zero
result selected (R86). -/
def State.gfDiv (s : State) (a b : Byte) : Option Byte :=
  match s.gfInv b with
  | none => none
  | some ib =>
    let q := s.gfMul a ib
    some (if a = 0x00#8 then 0x00#8 else q)

end Sys2Proof.Machine
end

