-- ==== Sys2Proof/Machine/Field.lean ====
section
/-! DEFINITION. The field commands (40_field.md R88 to R94). -/

namespace Sys2Proof.Machine

/-- `ADD a, b`: respond with `gf_add(a, b)` (R88). -/
def execAdd (a b : Byte) (s : State) : Host.Outcome State Fault Refusal :=
  .next (s.respondOk (gfAdd a b))

/-- `SUB a, b`: exactly what `ADD` computes (R89). -/
def execSub (a b : Byte) (s : State) : Host.Outcome State Fault Refusal :=
  .next (s.respondOk (gfAdd a b))

/-- `MUL a, b`: respond with `MULT[a][b]` (R90). -/
def execMul (a b : Byte) (s : State) : Host.Outcome State Fault Refusal :=
  .next (s.respondOk (s.gfMul a b))

/-- `INV a`: respond with `gf_inv(a)`, or raise DomainError (R91). -/
def execInv (a : Byte) (s : State) : Host.Outcome State Fault Refusal :=
  .next (s.respondResult (s.gfInv a))

/-- `DIV a, b`: respond with `gf_div(a, b)`, or raise DomainError (R92). -/
def execDiv (a b : Byte) (s : State) : Host.Outcome State Fault Refusal :=
  .next (s.respondResult (s.gfDiv a b))

/-- `MULB a, b`: respond with `gf_mulb(a, b)`, without the table (R93). -/
def execMulb (a b : Byte) (s : State) : Host.Outcome State Fault Refusal :=
  .next (s.respondOk (gfMulb a b))

/-- `INVB a`: respond with `gf_pow254(a)`, without the table; DomainError for zero (R94). -/
def execInvb (a : Byte) (s : State) : Host.Outcome State Fault Refusal :=
  .next (s.respondResult (if a = 0x00#8 then none else some (gfPow254 a)))

end Sys2Proof.Machine
end

