-- ==== Sys2Proof/Machine/PolyFn.lean ====
section
/-! DEFINITION. The polynomial functions of 42_poly.md: `evaluate` (R120), `interpolate` (R127), and the schedule of the
MAC pipeline (R125), each over the multiplication and division it is given. -/

namespace Sys2Proof.Machine

/-- The loop of R120: the coefficients below `i`, from the highest down; a zero coefficient costs a single multiply. -/
def hornerLoop (mul : Byte → Byte → Byte) (c : Nat → Byte) (x : Byte) : Nat → Byte → Byte
  | 0, acc => acc
  | i + 1, acc => hornerLoop mul c x i (if c i = 0x00#8 then mul acc x else mul acc x ^^^ c i)

/-- `evaluate(C, d, x)` (R120), with the short-circuit at zero. -/
def evaluate (mul : Byte → Byte → Byte) (c : Nat → Byte) (d : Nat) (x : Byte) : Byte :=
  if x = 0x00#8 then c 0 else hornerLoop mul c x d (c d)

/-- Pass 1 of R127 on the samples from `i` on, `n` of them: the y of the lowest match (R128). -/
def matchFrom (xs ys : Nat → Byte) (x : Byte) : Nat → Nat → Option Byte
  | 0, _ => none
  | n + 1, i => if xs i = x then some (ys i) else matchFrom xs ys x n (i + 1)

/-- The product over the live `j ≠ i` of `v ^ X[j]` (R127: the numerator for `v = x`, the denominator for `v = X[i]`);
`n` samples are left, the next is `j`. -/
def productLoop (mul : Byte → Byte → Byte) (xs : Nat → Byte) (i : Nat) (v : Byte) : Nat → Nat → Byte → Byte
  | 0, _, acc => acc
  | n + 1, j, acc => productLoop mul xs i v n (j + 1) (if j = i then acc else mul acc (v ^^^ xs j))

/-- The product over all live `j ≠ i` of `v ^ X[j]`; an empty product is 0x01 (R127). -/
def basisProduct (mul : Byte → Byte → Byte) (xs : Nat → Byte) (n i : Nat) (v : Byte) : Byte :=
  productLoop mul xs i v n 0 0x01#8

/-- The term of sample `i` in R127; none is DomainError. -/
def lagrangeTerm (mul : Byte → Byte → Byte) (div : Byte → Byte → Option Byte) (xs ys : Nat → Byte) (n : Nat) (x : Byte)
    (i : Nat) : Option Byte :=
  match div (basisProduct mul xs n i x) (basisProduct mul xs n i (xs i)) with
  | none => none
  | some q => some (mul q (ys i))

/-- Pass 2 of R127: `k` samples are left, the next is `i`; `skip` is SKIP_ZERO_Y (R129); none is DomainError. -/
def lagrangeLoop (mul : Byte → Byte → Byte) (div : Byte → Byte → Option Byte) (skip : Bool) (xs ys : Nat → Byte) (n : Nat)
    (x : Byte) : Nat → Nat → Byte → Option Byte
  | 0, _, acc => some acc
  | k + 1, i, acc =>
    if skip && ys i == 0x00#8 then lagrangeLoop mul div skip xs ys n x k (i + 1) acc
    else
      match lagrangeTerm mul div xs ys n x i with
      | none => none
      | some t => lagrangeLoop mul div skip xs ys n x k (i + 1) (acc ^^^ t)

/-- `interpolate(X, Y, n, x)` (R127); none is DomainError. -/
def interpolate (mul : Byte → Byte → Byte) (div : Byte → Byte → Option Byte) (skip : Bool) (xs ys : Nat → Byte) (n : Nat)
    (x : Byte) : Option Byte :=
  if n < 1 then some 0x00#8
  else
    match matchFrom xs ys x n 0 with
    | some y => some y
    | none => lagrangeLoop mul div skip xs ys n x n 0 0x00#8

/-- One round of the MAC pipeline (R125): `acc[k] <- gf_mul(acc[k], X[k]) ^ C[i]` in every slot. -/
def macRound (mul : Byte → Byte → Byte) (ci : Byte) : List Byte → List Byte → List Byte
  | p :: points, acc :: accs => (mul acc p ^^^ ci) :: macRound mul ci points accs
  | _, _ => []

/-- The rounds for the coefficients below `i`, from the highest down (R125). -/
def macRounds (mul : Byte → Byte → Byte) (c : Nat → Byte) (points : List Byte) : Nat → List Byte → List Byte
  | 0, accs => accs
  | i + 1, accs => macRounds mul c points i (macRound mul (c i) points accs)

/-- The coefficient-major schedule of the MAC pipeline on a list of points (R125). -/
def macPipeline (mul : Byte → Byte → Byte) (c : Nat → Byte) (d : Nat) (points : List Byte) : List Byte :=
  macRounds mul c points d (points.map fun _ => c d)

/-- The empty issue slots the interlock inserts in each round (R125, 70_reset_and_hazards.md R190). -/
def macEmptySlots (ns : Nat) : Nat := Config.macDepth - ns

end Sys2Proof.Machine
end

