-- ==== Sys2Proof/Machine/Poly.lean ====
section
/-! DEFINITION. The polynomial engine commands (42_poly.md R123, R124, R130). -/

namespace Sys2Proof.Machine

/-- `evaluate(COEF, DEG, x)` on the state's coefficients and table (R123). -/
def State.evalAt (s : State) (x : Byte) : Byte :=
  evaluate s.gfMul (fun i => s.memRead .coef i) s.degree x

/-- The values of the polynomial at the live points, all from the same state (R124). -/
def State.liveValues (s : State) : List Byte :=
  (List.range s.liveCount).map fun k => s.evalAt (s.memRead .xs k)

/-- `interpolate(XS, YS, NS, x)` on the state's samples and tables (R130). -/
def State.interpAt (s : State) (x : Byte) : Option Byte :=
  interpolate s.gfMul s.gfDiv Config.skipZeroY (fun k => s.memRead .xs k) (fun k => s.memRead .ys k) s.liveCount x

/-- `EVAL x` (R123). -/
def execEval (x : Byte) (s : State) : Host.Outcome State Fault Refusal :=
  .next (s.respondOk (s.evalAt x))

/-- `MEVAL` (R124). -/
def execMeval (s : State) : Host.Outcome State Fault Refusal :=
  .next (s.writeYsRun s.liveValues).respondDone

/-- `INTERP x` (R130). -/
def execInterp (x : Byte) (s : State) : Host.Outcome State Fault Refusal :=
  .next (s.respondResult (s.interpAt x))

end Sys2Proof.Machine
end

