-- ==== Sys2Proof/Machine/PolyMem.lean ====
section
/-! DEFINITION. The polynomial and sample memory commands (41_polymem.md R100 to R110). -/

namespace Sys2Proof.Machine

/-- `SETDEG d` (R100). -/
def execSetdeg (d : Byte) (s : State) : Host.Outcome State Fault Refusal :=
  .next (s.setDeg d).respondDone

/-- `LDC i, v` (R101). -/
def execLdc (i v : Byte) (s : State) : Host.Outcome State Fault Refusal :=
  .next (s.writeCoef (effIndex i) v).respondDone

/-- `RDC i` (R102). -/
def execRdc (i : Byte) (s : State) : Host.Outcome State Fault Refusal :=
  .next (s.respondOk (s.coefAt i))

/-- `SETNS n` (R103). -/
def execSetns (n : Byte) (s : State) : Host.Outcome State Fault Refusal :=
  .next (s.setNs n).respondDone

/-- `LDX k, v` (R104). -/
def execLdx (k v : Byte) (s : State) : Host.Outcome State Fault Refusal :=
  .next (s.writeXs (effIndex k) v).respondDone

/-- `LDY k, v` (R105). -/
def execLdy (k v : Byte) (s : State) : Host.Outcome State Fault Refusal :=
  .next (s.writeYs (effIndex k) v).respondDone

/-- `RDX k` (R106). -/
def execRdx (k : Byte) (s : State) : Host.Outcome State Fault Refusal :=
  .next (s.respondOk (s.xsAt k))

/-- `RDY k` (R107). -/
def execRdy (k : Byte) (s : State) : Host.Outcome State Fault Refusal :=
  .next (s.respondOk (s.ysAt k))

/-- `RDDEG` (R108). -/
def execRddeg (s : State) : Host.Outcome State Fault Refusal :=
  .next (s.respondOk s.deg)

/-- `RDNS` (R109). -/
def execRdns (s : State) : Host.Outcome State Fault Refusal :=
  .next (s.respondOk s.ns)

end Sys2Proof.Machine
end

