-- ==== Sys2Proof/Machine/System.lean ====
section
/-! DEFINITION. The system command (43_system.md R140). -/

namespace Sys2Proof.Machine

/-- `RDST`: respond with STATUS; the sticky flags stay (R140). -/
def execRdst (s : State) : Host.Outcome State Fault Refusal :=
  .next (s.respondOk s.statusByte)

end Sys2Proof.Machine
end

