-- ==== Sys2Proof/Machine/Dispatch.lean ====
section
/-! DEFINITION. The meaning of each command, one arm per constructor. -/

namespace Sys2Proof.Machine

def exec (i : Instr) (s : State) : Host.Outcome State Fault Refusal :=
  match i with
  | .add a b => Sys2Proof.Machine.execAdd a b s
  | .sub a b => Sys2Proof.Machine.execSub a b s
  | .mul a b => Sys2Proof.Machine.execMul a b s
  | .inv a => Sys2Proof.Machine.execInv a s
  | .div a b => Sys2Proof.Machine.execDiv a b s
  | .mulb a b => Sys2Proof.Machine.execMulb a b s
  | .invb a => Sys2Proof.Machine.execInvb a s
  | .setdeg d => Sys2Proof.Machine.execSetdeg d s
  | .ldc j v => Sys2Proof.Machine.execLdc j v s
  | .rdc j => Sys2Proof.Machine.execRdc j s
  | .setns n => Sys2Proof.Machine.execSetns n s
  | .ldx k v => Sys2Proof.Machine.execLdx k v s
  | .ldy k v => Sys2Proof.Machine.execLdy k v s
  | .rdx k => Sys2Proof.Machine.execRdx k s
  | .rdy k => Sys2Proof.Machine.execRdy k s
  | .rddeg => Sys2Proof.Machine.execRddeg s
  | .rdns => Sys2Proof.Machine.execRdns s
  | .eval x => Sys2Proof.Machine.execEval x s
  | .meval => Sys2Proof.Machine.execMeval s
  | .interp x => Sys2Proof.Machine.execInterp x s
  | .rdst => Sys2Proof.Machine.execRdst s

end Sys2Proof.Machine
end

