-- ==== Sys2Proof/Machine/Step.lean ====
section
/-! DEFINITION. One step of the unit: the agent whose turn it is makes its one move (00_scope.md R9). -/

namespace Sys2Proof.Machine

/-- One step. A pending word that decodes runs as its command; one that does not is an illegal command
(30_encoding.md R69, 60_exceptions.md R155: decoding comes before execution). -/
def step (s : State) : Host.Outcome State Fault Refusal :=
  match s.phase with
  | .reset => .next s.takeReset
  | .build => .next s.buildTables
  | .transfer r => .next (s.transferResponse r)
  | .waitHost => .next s
  | .execute w =>
    match decode w with
    | .ok i => exec i s
    | .error _ => .next s.raiseIllegal
  | .accept w rest => .next (s.acceptCommand w rest)
  | .idle => .next s

/-- `s` with the command whose bits are `w` (the low `nbits` of them, zeros above) in flight, so that the very next step
executes it (assumption log entry 2). -/
def State.withFetchWord (s : State) (nbits w : Nat) : State :=
  s.placeCommand (BitVec.ofNat 32 (w % 2 ^ nbits))

end Sys2Proof.Machine
end

