-- ==== Sys2Proof/Machine/Assembler.lean ====
section
/-! DEFINITION. Assembler syntax, pseudo-commands and disassembly (30_encoding.md R71 to R73), over lists of characters.
What R71 does not say of spacing and digits is in assumption log entry 16. -/

namespace Sys2Proof.Machine

/-! ### Pseudo-commands (R72) -/

/-- The pseudo-commands of R72 with their operands. -/
inductive Pseudo where
  | interp0
  | ldpoly (cs : List Byte)
  | ldxs (xs : List Byte)
  | ldys (ys : List Byte)
  deriving DecidableEq, Repr

/-- One command per operand, at rising indices from `i`: `LDC 0, c0 ; LDC 1, c1 ; ...` (R72). -/
def loadRun (mk : Byte → Byte → Instr) : Nat → List Byte → List Instr
  | _, [] => []
  | i, v :: vs => mk (BitVec.ofNat 8 i) v :: loadRun mk (i + 1) vs

/-- The expansion of a pseudo-command into commands (R72); none where the number of operands is not allowed. -/
def expandPseudo : Pseudo → Option (List Instr)
  | .interp0 => some [.interp 0x00#8]
  | .ldpoly cs =>
    if 1 ≤ cs.length ∧ cs.length ≤ 256 then
      some (.setdeg (BitVec.ofNat 8 (cs.length - 1)) :: loadRun (fun i v => .ldc i v) 0 cs)
    else none
  | .ldxs xs =>
    if xs.length ≤ 255 then some (.setns (BitVec.ofNat 8 xs.length) :: loadRun (fun k v => .ldx k v) 0 xs) else none
  | .ldys ys => if ys.length ≤ 255 then some (loadRun (fun k v => .ldy k v) 0 ys) else none

/-! ### Lines (R71) -/

/-- A line after number normalisation (R73): the mnemonic and the operands' values. -/
structure AsmLine where
  name : List Char
  operands : List Nat
  deriving DecidableEq, Repr

/-- The mnemonics of R65 in upper case, with their opcodes. -/
def asmNames : List (List Char × Byte) :=
  [(['A', 'D', 'D'], 0x01#8), (['S', 'U', 'B'], 0x02#8), (['M', 'U', 'L'], 0x03#8), (['I', 'N', 'V'], 0x04#8),
   (['D', 'I', 'V'], 0x05#8), (['M', 'U', 'L', 'B'], 0x06#8), (['I', 'N', 'V', 'B'], 0x07#8),
   (['S', 'E', 'T', 'D', 'E', 'G'], 0x10#8), (['L', 'D', 'C'], 0x11#8), (['R', 'D', 'C'], 0x12#8),
   (['S', 'E', 'T', 'N', 'S'], 0x13#8), (['L', 'D', 'X'], 0x14#8), (['L', 'D', 'Y'], 0x15#8),
   (['R', 'D', 'X'], 0x16#8), (['R', 'D', 'Y'], 0x17#8), (['R', 'D', 'D', 'E', 'G'], 0x18#8),
   (['R', 'D', 'N', 'S'], 0x19#8), (['E', 'V', 'A', 'L'], 0x20#8), (['M', 'E', 'V', 'A', 'L'], 0x21#8),
   (['I', 'N', 'T', 'E', 'R', 'P'], 0x22#8), (['R', 'D', 'S', 'T'], 0x30#8)]

/-- The opcode of a mnemonic. -/
def opcodeNamed (name : List Char) : Option Byte := (asmNames.find? fun row => row.1 == name).map fun row => row.2

/-- The mnemonic of an opcode. -/
def nameOfOpcode (op : Byte) : Option (List Char) := (asmNames.find? fun row => row.2 == op).map fun row => row.1

/-- An operand's value as a byte: an unsigned number 0 to 255 (R71). -/
def operandByte (n : Nat) : Option Byte := if n ≤ 255 then some (BitVec.ofNat 8 n) else none

/-- The operands of a line as bytes. -/
def operandBytes : List Nat → Option (List Byte)
  | [] => some []
  | n :: ns =>
    match operandByte n, operandBytes ns with
    | some b, some bs => some (b :: bs)
    | _, _ => none

/-- The command a line of R71 stands for: the mnemonic, then the operands its format uses. -/
def commandOfLine (l : AsmLine) : Option Instr :=
  match opcodeNamed l.name, operandBytes l.operands with
  | some op, some bs =>
    match opcodeRow op, bs with
    | some (.ab, mk), [a, b] => some (mk a b)
    | some (.a, mk), [a] => some (mk a 0x00#8)
    | some (.n, mk), [] => some (mk 0x00#8 0x00#8)
    | _, _ => none
  | _, _ => none

/-- The pseudo-command a line stands for (R72). -/
def pseudoOfLine (l : AsmLine) : Option Pseudo :=
  match operandBytes l.operands with
  | some bs =>
    if l.name = ['I', 'N', 'T', 'E', 'R', 'P', '0'] ∧ bs = [] then some .interp0
    else if l.name = ['L', 'D', 'P', 'O', 'L', 'Y'] then some (.ldpoly bs)
    else if l.name = ['L', 'D', 'X', 'S'] then some (.ldxs bs)
    else if l.name = ['L', 'D', 'Y', 'S'] then some (.ldys bs)
    else none
  | none => none

/-- The word of a command line: reserved fields are zero (R71). -/
def assembleCommand (l : AsmLine) : Option CmdWord := (commandOfLine l).map encode

/-- The words of a line: one for a command, the expansion's for a pseudo-command (R71, R72). -/
def assembleLine (l : AsmLine) : Option (List CmdWord) :=
  match commandOfLine l with
  | some i => some [encode i]
  | none =>
    match pseudoOfLine l with
    | some p => (expandPseudo p).map fun is => is.map encode
    | none => none

/-- The line a command disassembles to, before it is written out (R73). -/
def lineOf (i : Instr) : AsmLine :=
  let f := encodeFields i
  let name := (nameOfOpcode f.op).getD []
  match formatOf i with
  | .ab => { name := name, operands := [f.a.toNat, f.b.toNat] }
  | .a => { name := name, operands := [f.a.toNat] }
  | .n => { name := name, operands := [] }

/-! ### Text (R71, R73) -/

/-- A space or a tab. -/
def isBlank (c : Char) : Bool := c == ' ' || c == '\t'

/-- The text before a `;`, which starts a comment that runs to the end of the line (R71). -/
def stripComment (cs : List Char) : List Char := cs.takeWhile fun c => c != ';'

/-- The text without the blanks at both ends. -/
def trim (cs : List Char) : List Char := ((cs.dropWhile isBlank).reverse.dropWhile isBlank).reverse

/-- The parts of a text between its commas. -/
def splitCommas : List Char → List (List Char)
  | [] => [[]]
  | c :: cs =>
    if c = ',' then [] :: splitCommas cs
    else
      match splitCommas cs with
      | [] => [[c]]
      | part :: parts => (c :: part) :: parts

/-- The value of a digit in base 16 or below. -/
def digitValue (base : Nat) (c : Char) : Option Nat :=
  let n := c.toNat
  let v := if 48 ≤ n ∧ n ≤ 57 then n - 48 else if 65 ≤ n ∧ n ≤ 70 then n - 55 else if 97 ≤ n ∧ n ≤ 102 then n - 87 else 16
  if v < base then some v else none

/-- The value of a run of digits, continuing from `acc`. -/
def digitsValue (base : Nat) : Nat → List Char → Option Nat
  | acc, [] => some acc
  | acc, c :: cs =>
    match digitValue base c with
    | some v => digitsValue base (base * acc + v) cs
    | none => none

/-- An unsigned number, decimal or `0x` hexadecimal (R71). -/
def parseNumber : List Char → Option Nat
  | [] => none
  | '0' :: 'x' :: c :: cs => digitsValue 16 0 (c :: cs)
  | c :: cs => digitsValue 10 0 (c :: cs)

/-- A list of numbers, none where one of them is no number. -/
def parseNumbers : List (List Char) → Option (List Nat)
  | [] => some []
  | p :: ps =>
    match parseNumber (trim p), parseNumbers ps with
    | some n, some ns => some (n :: ns)
    | _, _ => none

/-- A line of text as R71 writes it: a mnemonic, then its operands separated by commas. -/
def parseLine (cs : List Char) : Option AsmLine :=
  let body := trim (stripComment cs)
  let name := body.takeWhile fun c => !isBlank c
  let rest := trim (body.dropWhile fun c => !isBlank c)
  if name = [] then none
  else if rest = [] then some { name := name, operands := [] }
  else (parseNumbers (splitCommas rest)).map fun ns => { name := name, operands := ns }

/-- The words of a line of text; a line that holds no command (blank, or only a comment) gives none (R71, R72). -/
def assembleText (cs : List Char) : Option (List CmdWord) :=
  if trim (stripComment cs) = [] then some []
  else
    match parseLine cs with
    | some l => assembleLine l
    | none => none

/-- A hexadecimal digit. -/
def hexDigit (n : Nat) : Char :=
  (['0', '1', '2', '3', '4', '5', '6', '7', '8', '9', 'A', 'B', 'C', 'D', 'E', 'F'][n]?).getD '0'

/-- The two hexadecimal digits of a byte. -/
def hexPair (n : Nat) : List Char := [hexDigit (n / 16 % 16), hexDigit (n % 16)]

/-- An operand written out, `0x` and two digits (R73). -/
def hexOperand (n : Nat) : List Char := ['0', 'x'] ++ hexPair n

/-- The operands written out, separated by a comma and a blank. -/
def operandText : List Nat → List Char
  | [] => []
  | [n] => hexOperand n
  | n :: m :: ns => hexOperand n ++ [',', ' '] ++ operandText (m :: ns)

/-- A line written out (R73). -/
def lineText (l : AsmLine) : List Char :=
  if l.operands = [] then l.name else l.name ++ [' '] ++ operandText l.operands

/-- The disassembly of a word (R73): the command's line, or `.word 0x` and eight digits. -/
def disassemble (w : CmdWord) : List Char :=
  match decode w with
  | .ok i => lineText (lineOf i)
  | .error _ =>
    ['.', 'w', 'o', 'r', 'd', ' ', '0', 'x'] ++ hexPair (fieldsOf w).op.toNat ++ hexPair (fieldsOf w).a.toNat
      ++ hexPair (fieldsOf w).b.toNat ++ hexPair (fieldsOf w).z.toNat

end Sys2Proof.Machine
end

