-- ==== Sys2Proof/Safety.lean ====
section
/-! DEFINITION. The terms the claims use: the invariant of the machine, built tables, legal responses, the reference
forms of the field and polynomial functions, and runs of several commands. -/

namespace Sys2Proof.Machine

/-! ### Responses and tables -/

/-- A response word the unit can produce (30_encoding.md R63, R64): OK with any data, or an error with DATA = 0x00. -/
def LegalResponse (r : RspWord) : Prop :=
  r.extractLsb' 8 8 = 0x00#8 ∨ r = 0x0100#16 ∨ r = 0x0200#16

/-- The contents of the tables once built (10_state.md R27, R28): `MULT[a][b] == gf_mulb(a, b)` and
`INVT[a] == gf_pow254(a)`. -/
def State.TablesBuilt (s : State) : Prop :=
  (∀ a b : Byte, s.memRead .mult (256 * a.toNat + b.toNat) = gfMulb a b) ∧
  ∀ a : Byte, s.memRead .invt a.toNat = gfPow254 a

/-! ### The invariant of the machine -/

/-- What holds of every state a run reaches. -/
structure State.Inv (s : State) : Prop where
  /-- `COEF` is in canonical form. -/
  coefWf : s.coef.wf = true
  /-- `XS` is in canonical form. -/
  xsWf : s.xs.wf = true
  /-- `YS` is in canonical form. -/
  ysWf : s.ys.wf = true
  /-- Bits 7:3 of STATUS are 0 (10_state.md R29). -/
  reserved : s.status &&& 0xF8#8 = 0x00#8
  /-- Once READY, the tables are built (R27, R28). -/
  tables : s.ready = true → s.TablesBuilt
  /-- Before READY the unit is in its reset state: nothing has executed (R30, 70_reset_and_hazards.md R183). -/
  fresh : s.ready = false →
    s.status = 0x00#8 ∧ s.deg = 0x00#8 ∧ s.ns = 0x00#8 ∧ s.coef = [] ∧ s.xs = [] ∧ s.ys = [] ∧ s.cmd = none ∧ s.rsp = none
  /-- One command is in flight at a time (20_memory.md R47). -/
  oneInFlight : s.cmd = none ∨ s.rsp = none
  /-- The response presented is one of R64's. -/
  legalRsp : ∀ r, s.rsp = some r → LegalResponse r
  /-- The responses the host has received are R64's. -/
  legalOut : ∀ r ∈ s.rspOut, LegalResponse r
  /-- An error being reported is latched in its sticky flag (60_exceptions.md R151, R152). -/
  latched : (s.rsp = some 0x0100#16 → s.illerr = true) ∧ (s.rsp = some 0x0200#16 → s.domerr = true)

/-- No error has been raised since reset (92_eei_decisions.md D9: the premise for the source's behaviour). -/
def State.ErrorFree (s : State) : Prop := s.domerr = false ∧ s.illerr = false

/-! ### Samples -/

/-- The live x values are pairwise distinct (42_poly.md R129, R133). -/
def State.DistinctXs (s : State) : Prop :=
  ∀ i j, i < s.ns.toNat → j < s.ns.toNat → s.memRead .xs i = s.memRead .xs j → i = j

/-- The three conditions of 42_poly.md R131 for `INTERP x` to raise DomainError. -/
def State.RepeatCase (s : State) (x : Byte) : Prop :=
  1 ≤ s.ns.toNat ∧ (∀ i, i < s.ns.toNat → s.memRead .xs i ≠ x) ∧
  ∃ i, i < s.ns.toNat ∧ s.memRead .ys i ≠ 0x00#8 ∧
    ∃ j, j < s.ns.toNat ∧ j ≠ i ∧ s.memRead .xs j = s.memRead .xs i

/-- The condition for `ERR_DOMAIN` of each command (60_exceptions.md R153). -/
def State.DomainCase (s : State) : Instr → Prop
  | .inv a => a = 0x00#8
  | .invb a => a = 0x00#8
  | .div _ b => b = 0x00#8
  | .interp x => s.RepeatCase x
  | .add _ _ => False
  | .sub _ _ => False
  | .mul _ _ => False
  | .mulb _ _ => False
  | .setdeg _ => False
  | .ldc _ _ => False
  | .rdc _ => False
  | .setns _ => False
  | .ldx _ _ => False
  | .ldy _ _ => False
  | .rdx _ => False
  | .rdy _ => False
  | .rddeg => False
  | .rdns => False
  | .eval _ => False
  | .meval => False
  | .rdst => False

/-! ### Reference forms of the functions -/

/-- `a` multiplied by itself `n` times, from 1 (40_field.md R83's `a^n`). -/
def gfPower (a : Byte) : Nat → Byte
  | 0 => 0x01#8
  | n + 1 => gfMulb (gfPower a n) a

/-- The value `C[0] + C[1] x + ... + C[d] x^d` over GF(2^8), term by term (42_poly.md R120). -/
def polyValue (c : Nat → Byte) (x : Byte) : Nat → Byte
  | 0 => c 0
  | d + 1 => polyValue c x d ^^^ gfMulb (c (d + 1)) (gfPower x (d + 1))

/-- The plain recurrence of 42_poly.md R121: from `h_i` to `h_0`, with no short-cut. -/
def plainHorner (mul : Byte → Byte → Byte) (c : Nat → Byte) (x : Byte) : Nat → Byte → Byte
  | 0, h => h
  | i + 1, h => plainHorner mul c x i (mul h x ^^^ c i)

/-! ### Runs of several commands -/

/-- What the command rules make of one word: the state after its response is transferred (20_memory.md R46). -/
def afterCommand (w : CmdWord) (s : State) : Option State :=
  match decode w with
  | .error _ => some (s.raiseIllegal.transferResponse 0x0100#16)
  | .ok i =>
    match exec i s with
    | .next t =>
      match t.rsp with
      | some r => some (t.transferResponse r)
      | none => none
    | .fault _ => none
    | .refused _ => none

/-- The command rules applied one after another (R46). -/
def afterCommands : List CmdWord → State → Option State
  | [], s => some s
  | w :: ws, s =>
    match afterCommand w s with
    | some t => afterCommands ws t
    | none => none

/-- The commands of a list executed one after another. -/
def execAll : List Instr → State → Option State
  | [], s => some s
  | i :: is, s =>
    match exec i s with
    | .next t => execAll is t
    | .fault _ => none
    | .refused _ => none

end Sys2Proof.Machine
end

