-- ==== Sys2Proof/Certificates/Slice0/Obligations.lean ====
section
/-! DEFINITION. The statements about FGF8, each from a numbered rule of spec/. They state and prove nothing. -/

open Sys2Proof Sys2Proof.Machine

/-! ### Encoding (30_encoding.md) -/

/-- One word of each command, written out from the rows of R65 and the vectors of 95_test_vectors.md, decodes to it. -/
def Obligations.SpecWordsDecode : Prop :=
  decode 0x01578300#32 = .ok (.add 0x57#8 0x83#8) ∧ decode 0x02578300#32 = .ok (.sub 0x57#8 0x83#8) ∧
  decode 0x03578300#32 = .ok (.mul 0x57#8 0x83#8) ∧ decode 0x04530000#32 = .ok (.inv 0x53#8) ∧
  decode 0x05C18300#32 = .ok (.div 0xC1#8 0x83#8) ∧ decode 0x06578300#32 = .ok (.mulb 0x57#8 0x83#8) ∧
  decode 0x07530000#32 = .ok (.invb 0x53#8) ∧ decode 0x10020000#32 = .ok (.setdeg 0x02#8) ∧
  decode 0x11006800#32 = .ok (.ldc 0x00#8 0x68#8) ∧ decode 0x12FF0000#32 = .ok (.rdc 0xFF#8) ∧
  decode 0x13050000#32 = .ok (.setns 0x05#8) ∧ decode 0x14010200#32 = .ok (.ldx 0x01#8 0x02#8) ∧
  decode 0x1500CD00#32 = .ok (.ldy 0x00#8 0xCD#8) ∧ decode 0x16010000#32 = .ok (.rdx 0x01#8) ∧
  decode 0x17040000#32 = .ok (.rdy 0x04#8) ∧ decode 0x18000000#32 = .ok .rddeg ∧
  decode 0x19000000#32 = .ok .rdns ∧ decode 0x20030000#32 = .ok (.eval 0x03#8) ∧
  decode 0x21000000#32 = .ok .meval ∧ decode 0x22FE0000#32 = .ok (.interp 0xFE#8) ∧
  decode 0x30000000#32 = .ok .rdst

/-- Decoding the word of a well-formed command gives the command back, every operand at every value. -/
def Obligations.DecodeEncodeRoundTrip : Prop :=
  ∀ i : Instr, i.wellFormed = true → decode (encode i) = .ok i

/-- A word that decodes is the word of the command it decodes to: no bit of a legal word is ignored. -/
def Obligations.EncodeDecodeRoundTrip : Prop :=
  ∀ (w : CmdWord) (i : Instr), decode w = .ok i → encode i = w

/-- R61: a word is a command exactly when it matches a row of the table, the rows are mutually exclusive, the row that
matches is the decoded command's, and each row's mask is its format's and its pattern `OP << 24`. -/
def Obligations.DecodesExactlyTableRows : Prop :=
  (∀ w : CmdWord, (∃ i, decode w = .ok i) ↔ ∃ row ∈ opcodeTable, w &&& row.mask = row.pattern) ∧
  (∀ (w : CmdWord) (row row' : TableRow), row ∈ opcodeTable → row' ∈ opcodeTable →
    w &&& row.mask = row.pattern → w &&& row'.mask = row'.pattern → row = row') ∧
  (∀ (w : CmdWord) (i : Instr), decode w = .ok i →
    ∃ row ∈ opcodeTable, row.name = mnemonicOf i ∧ row.fmt = formatOf i ∧ w &&& row.mask = row.pattern) ∧
  ∀ row ∈ opcodeTable, row.mask = maskOf row.fmt ∧ ∃ op : Byte, row.pattern = op.zeroExtend 32 <<< 24

/-- R69: exactly these words are illegal, and executing one is `raise IllegalCommand`: ILLERR and the response change,
nothing else. -/
def Obligations.IllegalWordsExactly : Prop :=
  (∀ w : CmdWord, (∃ e, decode w = .error e) ↔
    let op := (w.extractLsb' 24 8).toNat
    op = 0x00 ∨ (0x08 ≤ op ∧ op ≤ 0x0F) ∨ (0x1A ≤ op ∧ op ≤ 0x1F) ∨ (0x23 ≤ op ∧ op ≤ 0x2F) ∨ 0x31 ≤ op ∨
    w.extractLsb' 0 8 ≠ 0x00#8 ∨
    (op ∈ [0x04, 0x07, 0x10, 0x12, 0x13, 0x16, 0x17, 0x20, 0x22] ∧ w.extractLsb' 8 8 ≠ 0x00#8) ∨
    (op ∈ [0x18, 0x19, 0x21, 0x30] ∧ (w.extractLsb' 16 8 ≠ 0x00#8 ∨ w.extractLsb' 8 8 ≠ 0x00#8))) ∧
  (∃ e, decode 0x00000000#32 = .error e) ∧ (∃ e, decode 0xFFFFFFFF#32 = .error e) ∧
  ∀ (s : State) (w : CmdWord), s.rst = false → s.ready = true → s.rsp = none → s.cmd = some w →
    (∃ e, decode w = .error e) →
    step s = .next { s with status := s.status ||| 0x04#8, cmd := none, rsp := some 0x0100#16 }

/-- R42: a command word, legal or not, is serialised as its four bytes opcode, A, B, reserved and a response word as its
two bytes status, data, most significant byte first; reading the bytes of a word gives the word back and leaves the bytes
after it, too few bytes are no word, and decoding a command's bytes is decoding its word. -/
def Obligations.ByteSequenceRoundTrip : Prop :=
  (∀ (w : CmdWord) (rest : List Byte), cmdOfBytes (cmdBytes w ++ rest) = some (w, rest) ∧
    cmdBytes w = [w.extractLsb' 24 8, w.extractLsb' 16 8, w.extractLsb' 8 8, w.extractLsb' 0 8]) ∧
  (∀ (op a b z : Byte), cmdBytes (op ++ a ++ b ++ z) = [op, a, b, z]) ∧
  (∀ (bs rest : List Byte) (w : CmdWord), cmdOfBytes bs = some (w, rest) ↔ bs = cmdBytes w ++ rest) ∧
  (∀ bs : List Byte, cmdOfBytes bs = none ↔ bs.length < 4) ∧
  (∀ (r : RspWord) (rest : List Byte), rspOfBytes (rspBytes r ++ rest) = some (r, rest) ∧
    rspBytes r = [r.extractLsb' 8 8, r.extractLsb' 0 8]) ∧
  (∀ st data : Byte, rspBytes (st ++ data) = [st, data]) ∧
  (∀ (bs rest : List Byte) (r : RspWord), rspOfBytes bs = some (r, rest) ↔ bs = rspBytes r ++ rest) ∧
  (∀ bs : List Byte, rspOfBytes bs = none ↔ bs.length < 2) ∧
  (∀ (i : Instr) (rest : List Byte), decodeBytes (encodeBytes i ++ rest) = .ok (i, rest)) ∧
  (∀ i : Instr, encodeBytes i = cmdBytes (encode i)) ∧
  (∀ (w : CmdWord) (rest : List Byte) (e : IllegalWord), decode w = .error e →
    decodeBytes (cmdBytes w ++ rest) = .error e) ∧
  ∀ (op a b z : Byte) (rest : List Byte) (i : Instr),
    decodeBytes (op :: a :: b :: z :: rest) = .ok (i, rest) ↔ decode (op ++ a ++ b ++ z) = .ok i

/-- R73: assembling the disassembly of a legal word gives the word back, an illegal word disassembles to `.word 0x` and
its eight digits, and two different lines do not assemble to one word. -/
def Obligations.AssemblerRoundTrip : Prop :=
  (∀ (w : CmdWord) (i : Instr), decode w = .ok i → assembleText (disassemble w) = some [w]) ∧
  (∀ (w : CmdWord) (e : IllegalWord), decode w = .error e → ∃ digits : List Char, digits.length = 8 ∧
    disassemble w = ['.', 'w', 'o', 'r', 'd', ' ', '0', 'x'] ++ digits ∧ digitsValue 16 0 digits = some w.toNat) ∧
  ∀ (l l' : AsmLine) (w : CmdWord), assembleCommand l = some w → assembleCommand l' = some w → l = l'

/-- R72: the pseudo-commands expand where their operand counts are allowed, and executing the expansion loads the
polynomial, the points or the y-samples, and writes nothing else. -/
def Obligations.PseudoCommandsLoad : Prop :=
  expandPseudo .interp0 = some [.interp 0x00#8] ∧
  (∀ (cs : List Byte) (s : State), 1 ≤ cs.length → cs.length ≤ 256 → ∃ is t,
    expandPseudo (.ldpoly cs) = some is ∧ execAll is s = some t ∧ t.deg.toNat = cs.length - 1 ∧ t.ns = s.ns ∧
    t.status = s.status ∧ (∀ k v, cs[k]? = some v → t.memRead .coef k = v) ∧
    ∀ S k, (S ≠ .coef ∨ cs.length ≤ k) → t.memRead S k = s.memRead S k) ∧
  (∀ (xs : List Byte) (s : State), xs.length ≤ 255 → ∃ is t,
    expandPseudo (.ldxs xs) = some is ∧ execAll is s = some t ∧ t.ns.toNat = xs.length ∧ t.deg = s.deg ∧
    t.status = s.status ∧ (∀ k v, xs[k]? = some v → t.memRead .xs k = v) ∧
    ∀ S k, (S ≠ .xs ∨ xs.length ≤ k) → t.memRead S k = s.memRead S k) ∧
  ∀ (ys : List Byte) (s : State), ys.length ≤ 255 → ∃ is t,
    expandPseudo (.ldys ys) = some is ∧ execAll is s = some t ∧ t.ns = s.ns ∧ t.deg = s.deg ∧
    t.status = s.status ∧ (∀ k v, ys[k]? = some v → t.memRead .ys k = v) ∧
    ∀ S k, (S ≠ .ys ∨ ys.length ≤ k) → t.memRead S k = s.memRead S k

/-! ### Reset, the table builder and the ports -/

/-- R35, the state after reset: the registers and STATUS are zero, nothing is written in any space, nothing pends. -/
def Obligations.ResetStateValues : Prop :=
  State.reset.deg = 0x00#8 ∧ State.reset.ns = 0x00#8 ∧ State.reset.ready = false ∧ State.reset.domerr = false ∧
  State.reset.illerr = false ∧ State.reset.status.extractLsb' 3 5 = 0#5 ∧ State.reset.cmd = none ∧
  State.reset.rsp = none ∧ ∀ S k, State.reset.stored? S k = none

/-- R35, R181: while `rst` is high a step takes the reset state from every state, and a command in flight or a response
being presented is gone without reaching the host; the builder's step after it gives the tables their contents. That
an unspecified byte of R35 is an entry with no written byte is the model's form (log entry 3),
and that the builder's step is the very next one is the model's order of steps (log entry 6). -/
def Obligations.ResetStepDropsEverything : Prop :=
  ∀ s : State, s.rst = true → ∃ t, step s = .next t ∧
    t.deg = 0x00#8 ∧ t.ns = 0x00#8 ∧ t.ready = false ∧ t.domerr = false ∧ t.illerr = false ∧
    t.status.extractLsb' 3 5 = 0#5 ∧ (∀ S k, t.stored? S k = none) ∧ t.cmd = none ∧ t.rsp = none ∧
    t.rspOut = s.rspOut ∧ t.cmdReady = false ∧ t.rspValid = false ∧ t.readyPin = false ∧
    ∃ u, step { t with rst := false } = .next u ∧ u.ready = true ∧
      (∀ a b : Byte, u.memRead .mult (256 * a.toNat + b.toNat) = gfMulb a b) ∧
      ∀ a : Byte, u.memRead .invt a.toNat = gfPow254 a

/-- R87: with `rst` low and READY 0 a step fills both tables, for every pair and every entry, sets READY, and changes
nothing else. -/
def Obligations.TableBuilderFillsTables : Prop :=
  ∀ s : State, s.rst = false → s.ready = false → ∃ t, step s = .next t ∧
    (∀ a b : Byte, t.memRead .mult (256 * a.toNat + b.toNat) = gfMulb a b) ∧
    (∀ a : Byte, t.memRead .invt a.toNat = gfPow254 a) ∧ t.memRead .invt 0 = 0x00#8 ∧ t.ready = true ∧
    t = { s with mult := t.mult, invt := t.invt, status := s.status ||| 0x01#8 }

/-- R183: while READY is 0 no command is accepted and none executes; a waiting word keeps waiting, nothing is reported,
and with `rst` low the builder's step, which is always enabled, lifts the hold. -/
def Obligations.CommandsHeldBeforeReady : Prop :=
  ∀ s : State, s.ready = false →
    s.cmdReady = false ∧ ∃ t, step s = .next t ∧ t.cmdIn = s.cmdIn ∧ t.rspOut = s.rspOut ∧
      (s.rst = false → t.ready = true ∧ t.domerr = s.domerr ∧ t.illerr = s.illerr ∧ t.cmd = s.cmd ∧ t.rsp = s.rsp ∧
        t.deg = s.deg ∧ t.ns = s.ns ∧ t.coef = s.coef ∧ t.xs = s.xs ∧ t.ys = s.ys)

/-- When the pending word decodes to a well-formed command, the step is `exec` of it on that very state. -/
def Obligations.StepRunsDecodedCommand : Prop :=
  ∀ (s : State) (w : CmdWord) (i : Instr), s.rst = false → s.ready = true → s.rsp = none → s.cmd = some w →
    decode w = .ok i → i.wellFormed = true ∧ step s = exec i s

/-- R47, R48: a word leaves the host's words exactly in a step in which `cmd_ready` and `cmd_valid` are high, and is then
in flight with `cmd_ready` low; the host receives a response exactly when one is presented and accepted; a response
that is not accepted stays as it is. -/
def Obligations.PortHandshake : Prop :=
  (∀ s : State, s.cmdReady = true ↔ s.ready = true ∧ s.cmd = none ∧ s.rsp = none ∧ s.rst = false) ∧
  (∀ s t : State, step s = .next t → s.cmdReady = true → s.cmdValid = true →
    ∃ w, s.cmdIn = w :: t.cmdIn ∧ t = { s with cmd := some w, cmdIn := t.cmdIn } ∧ t.cmdReady = false) ∧
  (∀ s t : State, step s = .next t → (s.cmdReady = false ∨ s.cmdValid = false) → t.cmdIn = s.cmdIn) ∧
  (∀ s t : State, step s = .next t → s.rst = false → s.ready = true → s.rspReady = true → ∀ r, s.rsp = some r →
    t = { s with rsp := none, rspOut := s.rspOut ++ [r] }) ∧
  (∀ s t : State, step s = .next t → s.rst = false → s.ready = true → s.rspReady = false → s.rspValid = true → t = s) ∧
  ∀ s t : State, step s = .next t → (s.rst = true ∨ s.ready = false ∨ s.rspReady = false ∨ s.rsp = none) →
    t.rspOut = s.rspOut

/-- R166: between commands the unit idles with `cmd_ready` high and all state kept. -/
def Obligations.IdleKeepsState : Prop :=
  ∀ s : State, s.rst = false → s.ready = true → s.cmd = none → s.rsp = none → s.cmdIn = [] →
    s.cmdReady = true ∧ step s = .next s

/-- R46, R47: a run over the words the host presents gives what applying the command rules one word after another gives,
from a ready unit and from one that has just been reset; every command gets exactly one response, in order. -/
def Obligations.CommandsRunInProgramOrder : Prop :=
  ∀ (ws rest : List CmdWord) (s : State), s.rst = false → s.rspReady = true → s.cmd = none → s.rsp = none →
    s.cmdIn = ws ++ rest →
    (s.ready = true → ∃ t, afterCommands ws { s with cmdIn := rest } = some t ∧
      Sys2Proof.core.run (3 * ws.length) s = .next t ∧ t.cmd = none ∧ t.rsp = none ∧ t.cmdIn = rest ∧
      ∃ rs : List RspWord, t.rspOut = s.rspOut ++ rs ∧ rs.length = ws.length) ∧
    (s.ready = false → ∃ t, afterCommands ws { s.buildTables with cmdIn := rest } = some t ∧
      Sys2Proof.core.run (1 + 3 * ws.length) s = .next t)

/-! ### Invariants -/

/-- Every step keeps the invariant of the machine, from every state that meets it. -/
def Obligations.StepKeepsInvariant : Prop :=
  ∀ s t : State, s.Inv → step s = .next t → t.Inv

/-- The reset state meets the invariant. -/
def Obligations.ResetMeetsInvariant : Prop := State.reset.Inv

/-- Every move of the host keeps the invariant. -/
def Obligations.HostMovesKeepInvariant : Prop :=
  ∀ (s : State) (m : HostMove), s.Inv → (s.hostMove m).Inv

/-- R31, R32: DOMERR becomes 1 exactly when the command in flight raises DomainError, ILLERR exactly when the word in
flight is illegal, and nothing but reset clears them. -/
def Obligations.StickyErrorFlags : Prop :=
  ∀ s t : State, s.rst = false → step s = .next t →
    (∀ w, s.ready = true → s.rsp = none → s.cmd = some w →
      (t.domerr = true ↔ s.domerr = true ∨ t.rsp = some 0x0200#16) ∧
      (t.illerr = true ↔ s.illerr = true ∨ ∃ e, decode w = .error e)) ∧
    (¬(s.ready = true ∧ s.rsp = none ∧ s.cmd.isSome = true) → t.domerr = s.domerr ∧ t.illerr = s.illerr)

/-- R36: once READY, no agent writes a table and READY stays, until the next reset. -/
def Obligations.TablesImmutable : Prop :=
  (∀ s t : State, s.ready = true → s.rst = false → step s = .next t →
    t.mult = s.mult ∧ t.invt = s.invt ∧ t.ready = true) ∧
  ∀ (s : State) (m : HostMove), (s.hostMove m).mult = s.mult ∧ (s.hostMove m).invt = s.invt ∧
    (s.hostMove m).ready = s.ready

/-- Nothing stops the machine: every step from every state answers a next state. -/
def Obligations.StepAlwaysAnswers : Prop :=
  ∀ s : State, ∃ t, step s = .next t

/-- The "written by" column of R20: each piece of state is changed by no command but the ones named for it. -/
def Obligations.StateWrittenOnlyBy : Prop :=
  ∀ (i : Instr) (s t : State), exec i s = .next t →
    ((∀ d, i ≠ .setdeg d) → t.deg = s.deg) ∧
    ((∀ n, i ≠ .setns n) → t.ns = s.ns) ∧
    ((∀ k v, i ≠ .ldc k v) → t.coef = s.coef) ∧
    ((∀ k v, i ≠ .ldx k v) → t.xs = s.xs) ∧
    ((∀ k v, i ≠ .ldy k v) → i ≠ .meval → t.ys = s.ys) ∧
    t.mult = s.mult ∧ t.invt = s.invt ∧ t.epoch = s.epoch ∧
    (t.status = s.status ∨
      (t.status = s.status ||| 0x02#8 ∧ ((∃ a, i = .inv a) ∨ (∃ a, i = .invb a) ∨ (∃ a b, i = .div a b) ∨ ∃ x, i = .interp x)))

/-- R33: no flag changes what a command computes, but for `RDST`, which reports them; and the only flag a command sets is
DOMERR, on a domain error. -/
def Obligations.FlagsDoNotAffectCommands : Prop :=
  ∀ (i : Instr) (s : State) (v : Byte), i ≠ .rdst → ∃ (t : State) (u : Byte),
    exec i s = .next t ∧ exec i { s with status := v } = .next { t with status := u } ∧
    ((t.status = s.status ∧ u = v ∧ t.rsp ≠ some 0x0200#16) ∨
     (t.status = s.status ||| 0x02#8 ∧ u = v ||| 0x02#8 ∧ t.rsp = some 0x0200#16))

/-- R52: the seven field commands read only the tables, so their responses do not depend on the registers and memories,
and they change none of them. -/
def Obligations.FieldCommandsReadOnlyTables : Prop :=
  ∀ (a b : Byte) (s s' t t' : State), s'.mult = s.mult → s'.invt = s.invt → s'.epoch = s.epoch →
    ∀ i ∈ [Instr.add a b, .sub a b, .mul a b, .mulb a b, .inv a, .invb a, .div a b],
      exec i s = .next t → exec i s' = .next t' →
      t.rsp = t'.rsp ∧ t.deg = s.deg ∧ t.ns = s.ns ∧ t.coef = s.coef ∧ t.xs = s.xs ∧ t.ys = s.ys

/-! ### The field (40_field.md) -/

/-- R82: `gf_mulb` is multiplication modulo x^8+x^4+x^3+x+1 on the byte representation, and the facts R82 lists. -/
def Obligations.MulbIsFieldMultiplication : Prop :=
  (∀ a b : Byte,
    let poly : Byte → Polynomial (ZMod 2) := fun v =>
      ∑ i ∈ Finset.range 8, if v.getLsbD i = true then (Polynomial.X : Polynomial (ZMod 2)) ^ i else 0
    (Polynomial.X ^ 8 + Polynomial.X ^ 4 + Polynomial.X ^ 3 + Polynomial.X + 1 : Polynomial (ZMod 2)) ∣
      poly a * poly b - poly (gfMulb a b)) ∧
  (∀ a b : Byte, gfMulb a b = gfMulb b a) ∧
  (∀ a : Byte, gfMulb a 0x00#8 = 0x00#8 ∧ gfMulb 0x00#8 a = 0x00#8 ∧ gfMulb a 0x01#8 = a) ∧
  (∀ a b : Byte, a ≠ 0x00#8 → b ≠ 0x00#8 → gfMulb a b ≠ 0x00#8) ∧
  (∀ a : Byte, a ≠ 0x00#8 → Function.Bijective (gfMulb a)) ∧
  (∀ a b c : Byte, gfMulb a (b ^^^ c) = gfMulb a b ^^^ gfMulb a c) ∧
  ∀ a b c : Byte, gfMulb (gfMulb a b) c = gfMulb a (gfMulb b c)

/-- R83: `gf_pow254(a)` is `a` to the power 254, the inverse of every non-zero `a`, since `a^255 = 1`; it is 0 at 0. -/
def Obligations.Pow254IsInverse : Prop :=
  (∀ a : Byte, gfPow254 a = gfPower a 254) ∧
  (∀ a : Byte, a ≠ 0x00#8 → gfPower a 255 = 0x01#8 ∧ gfMulb a (gfPow254 a) = 0x01#8) ∧
  gfPow254 0x00#8 = 0x00#8

/-- R88, R89: `ADD` and `SUB` respond with the exclusive-or of their operands and change nothing else. -/
def Obligations.AddSubRespond : Prop :=
  ∀ (a b : Byte) (s : State),
    exec (.add a b) s = .next { s with cmd := none, rsp := some (0x00#8 ++ (a ^^^ b)) } ∧
    exec (.sub a b) s = .next { s with cmd := none, rsp := some (0x00#8 ++ (a ^^^ b)) } ∧
    encode (.add a b) = 0x01#8 ++ a ++ b ++ 0x00#8 ∧ encode (.sub a b) = 0x02#8 ++ a ++ b ++ 0x00#8 ∧
    a ^^^ a = 0x00#8 ∧ a ^^^ 0x00#8 = a ∧ a ^^^ b = b ^^^ a

/-- R90: `MUL` responds with `MULT[a][b]` and changes nothing else; on built tables this is the product, with R90's
corner cases. -/
def Obligations.MulRespond : Prop :=
  ∀ (a b : Byte) (s : State),
    exec (.mul a b) s = .next { s with cmd := none, rsp := some (0x00#8 ++ s.memRead .mult (256 * a.toNat + b.toNat)) } ∧
    encode (.mul a b) = 0x03#8 ++ a ++ b ++ 0x00#8 ∧
    (s.TablesBuilt →
      exec (.mul a b) s = .next { s with cmd := none, rsp := some (0x00#8 ++ gfMulb a b) } ∧
      exec (.mul b a) s = exec (.mul a b) s ∧
      exec (.mul a 0x00#8) s = .next { s with cmd := none, rsp := some 0x0000#16 } ∧
      exec (.mul 0x00#8 b) s = .next { s with cmd := none, rsp := some 0x0000#16 } ∧
      exec (.mul a 0x01#8) s = .next { s with cmd := none, rsp := some (0x00#8 ++ a) } ∧
      exec (.mul 0x02#8 0x80#8) s = .next { s with cmd := none, rsp := some 0x001B#16 })

/-- R91: `INV` of zero raises DomainError; of any other `a` it responds with `INVT[a]` and changes nothing else; on built
tables this is the inverse, never 0x00, and the inverse of the inverse is `a`. -/
def Obligations.InvRespond : Prop :=
  ∀ (a : Byte) (s : State),
    exec (.inv 0x00#8) s = .next { s with status := s.status ||| 0x02#8, cmd := none, rsp := some 0x0200#16 } ∧
    (a ≠ 0x00#8 → exec (.inv a) s = .next { s with cmd := none, rsp := some (0x00#8 ++ s.memRead .invt a.toNat) }) ∧
    encode (.inv a) = 0x04#8 ++ a ++ 0x00#8 ++ 0x00#8 ∧
    (s.TablesBuilt →
      exec (.inv 0x01#8) s = .next { s with cmd := none, rsp := some 0x0001#16 } ∧
      (a ≠ 0x00#8 → s.memRead .invt a.toNat ≠ 0x00#8 ∧ gfMulb a (s.memRead .invt a.toNat) = 0x01#8 ∧
        exec (.inv (s.memRead .invt a.toNat)) s = .next { s with cmd := none, rsp := some (0x00#8 ++ a) }))

/-- R92: `DIV` by zero raises DomainError, whatever the dividend; else it responds with 0 for a zero dividend and with
`MULT[a][INVT[b]]` for another, and changes nothing else; with R92's corner cases on built tables. -/
def Obligations.DivRespond : Prop :=
  ∀ (a b : Byte) (s : State),
    exec (.div a 0x00#8) s = .next { s with status := s.status ||| 0x02#8, cmd := none, rsp := some 0x0200#16 } ∧
    (b ≠ 0x00#8 → exec (.div a b) s = .next { s with cmd := none, rsp := some (0x00#8 ++
      (if a = 0x00#8 then 0x00#8 else s.memRead .mult (256 * a.toNat + (s.memRead .invt b.toNat).toNat))) }) ∧
    encode (.div a b) = 0x05#8 ++ a ++ b ++ 0x00#8 ∧
    (s.TablesBuilt →
      (b ≠ 0x00#8 → exec (.div 0x00#8 b) s = .next { s with cmd := none, rsp := some 0x0000#16 }) ∧
      exec (.div a 0x01#8) s = .next { s with cmd := none, rsp := some (0x00#8 ++ a) } ∧
      (a ≠ 0x00#8 → exec (.div a a) s = .next { s with cmd := none, rsp := some 0x0001#16 }))

/-- R93, R94: `MULB` and `INVB` respond with the bit-serial product and the power 254, without the tables; `INVB` of zero
raises DomainError; on built tables each answers as `MUL` and `INV` do. -/
def Obligations.BitPathCommandsRespond : Prop :=
  ∀ (a b : Byte) (s : State),
    exec (.mulb a b) s = .next { s with cmd := none, rsp := some (0x00#8 ++ gfMulb a b) } ∧
    exec (.invb 0x00#8) s = .next { s with status := s.status ||| 0x02#8, cmd := none, rsp := some 0x0200#16 } ∧
    (a ≠ 0x00#8 → exec (.invb a) s = .next { s with cmd := none, rsp := some (0x00#8 ++ gfPow254 a) }) ∧
    encode (.mulb a b) = 0x06#8 ++ a ++ b ++ 0x00#8 ∧ encode (.invb a) = 0x07#8 ++ a ++ 0x00#8 ++ 0x00#8 ∧
    (s.TablesBuilt → exec (.mulb a b) s = exec (.mul a b) s ∧ exec (.invb a) s = exec (.inv a) s)

/-- R95: the five properties the document lists, of the commands on built tables. -/
def Obligations.FieldLawsOfCommands : Prop :=
  ∀ (a b : Byte) (s : State), s.TablesBuilt →
    exec (.mul a b) s = exec (.mul b a) s ∧
    (a ≠ 0x00#8 → ∃ v : Byte, exec (.inv a) s = .next { s with cmd := none, rsp := some (0x00#8 ++ v) } ∧
      exec (.mul a v) s = .next { s with cmd := none, rsp := some 0x0001#16 }) ∧
    (b ≠ 0x00#8 → ∃ v : Byte, exec (.mul a b) s = .next { s with cmd := none, rsp := some (0x00#8 ++ v) } ∧
      exec (.div v b) s = .next { s with cmd := none, rsp := some (0x00#8 ++ a) }) ∧
    exec (.add a a) s = .next { s with cmd := none, rsp := some 0x0000#16 } ∧
    ∃ v : Byte, exec (.add a b) s = .next { s with cmd := none, rsp := some (0x00#8 ++ v) } ∧
      exec (.add v b) s = .next { s with cmd := none, rsp := some (0x00#8 ++ a) }

/-! ### Polynomial and sample memory commands (41_polymem.md) -/

/-- R100, R103, R108, R109: `SETDEG` and `SETNS` write their register and nothing else; `RDDEG` and `RDNS` respond with
it and write nothing. -/
def Obligations.RegisterCommandsRespond : Prop :=
  ∀ (v : Byte) (s : State),
    exec (.setdeg v) s = .next { s with deg := v, cmd := none, rsp := some 0x0000#16 } ∧
    exec (.setns v) s = .next { s with ns := v, cmd := none, rsp := some 0x0000#16 } ∧
    exec .rddeg s = .next { s with cmd := none, rsp := some (0x00#8 ++ s.deg) } ∧
    exec .rdns s = .next { s with cmd := none, rsp := some (0x00#8 ++ s.ns) } ∧
    encode (.setdeg v) = 0x10#8 ++ v ++ 0x00#8 ++ 0x00#8 ∧ encode (.setns v) = 0x13#8 ++ v ++ 0x00#8 ++ 0x00#8 ∧
    encode .rddeg = 0x18000000#32 ∧ encode .rdns = 0x19000000#32

/-- R101, R104, R105: `LDC`, `LDX`, `LDY` write the byte at the index in their memory and nothing else: every other entry
of every space reads as before, and every register is unchanged. -/
def Obligations.LoadCommandsWriteOneEntry : Prop :=
  ∀ (k v : Byte) (s : State),
    (∃ t, exec (.ldc k v) s = .next t ∧ t.rsp = some 0x0000#16 ∧
      (∀ S j, t.memRead S j = if S = .coef ∧ j = k.toNat then v else s.memRead S j) ∧
      t = { s with coef := t.coef, cmd := none, rsp := t.rsp }) ∧
    (∃ t, exec (.ldx k v) s = .next t ∧ t.rsp = some 0x0000#16 ∧
      (∀ S j, t.memRead S j = if S = .xs ∧ j = k.toNat then v else s.memRead S j) ∧
      t = { s with xs := t.xs, cmd := none, rsp := t.rsp }) ∧
    (∃ t, exec (.ldy k v) s = .next t ∧ t.rsp = some 0x0000#16 ∧
      (∀ S j, t.memRead S j = if S = .ys ∧ j = k.toNat then v else s.memRead S j) ∧
      t = { s with ys := t.ys, cmd := none, rsp := t.rsp }) ∧
    encode (.ldc k v) = 0x11#8 ++ k ++ v ++ 0x00#8 ∧ encode (.ldx k v) = 0x14#8 ++ k ++ v ++ 0x00#8 ∧
    encode (.ldy k v) = 0x15#8 ++ k ++ v ++ 0x00#8

/-- R102, R106, R107: `RDC`, `RDX`, `RDY` respond with the entry of their memory at the index and write nothing. -/
def Obligations.ReadCommandsRespond : Prop :=
  ∀ (k : Byte) (s : State),
    exec (.rdc k) s = .next { s with cmd := none, rsp := some (0x00#8 ++ s.memRead .coef k.toNat) } ∧
    exec (.rdx k) s = .next { s with cmd := none, rsp := some (0x00#8 ++ s.memRead .xs k.toNat) } ∧
    exec (.rdy k) s = .next { s with cmd := none, rsp := some (0x00#8 ++ s.memRead .ys k.toNat) } ∧
    encode (.rdc k) = 0x12#8 ++ k ++ 0x00#8 ++ 0x00#8 ∧ encode (.rdx k) = 0x16#8 ++ k ++ 0x00#8 ++ 0x00#8 ∧
    encode (.rdy k) = 0x17#8 ++ k ++ 0x00#8 ++ 0x00#8

/-- R44, R46, R110: a read after a load returns the byte loaded, a load twice leaves what it leaves once, and two reads
of one entry without a write between them agree. -/
def Obligations.ReadAfterLoad : Prop :=
  ∀ (k v : Byte) (s t u : State),
    (exec (.ldc k v) s = .next t → exec (.rdc k) t = .next u → u.rsp = some (0x00#8 ++ v)) ∧
    (exec (.ldx k v) s = .next t → exec (.rdx k) t = .next u → u.rsp = some (0x00#8 ++ v)) ∧
    (exec (.ldy k v) s = .next t → exec (.rdy k) t = .next u → u.rsp = some (0x00#8 ++ v)) ∧
    (exec (.ldc k v) s = .next t → exec (.ldc k v) t = .next u → u = t) ∧
    (exec (.ldx k v) s = .next t → exec (.ldx k v) t = .next u → u = t) ∧
    (exec (.ldy k v) s = .next t → exec (.ldy k v) t = .next u → u = t) ∧
    (exec (.rdc k) s = .next t → exec (.rdc k) t = .next u → u = t) ∧
    (exec (.rdx k) s = .next t → exec (.rdx k) t = .next u → u = t) ∧
    (exec (.rdy k) s = .next t → exec (.rdy k) t = .next u → u = t)

/-! ### The polynomial engines (42_poly.md) -/

/-- R123: `EVAL` responds with `evaluate(COEF, DEG, x)` on the table path and writes nothing, with R123's corner cases. -/
def Obligations.EvalRespond : Prop :=
  ∀ (x : Byte) (s : State),
    exec (.eval x) s = .next { s with cmd := none, rsp := some (0x00#8 ++
      evaluate (fun a b => s.memRead .mult (256 * a.toNat + b.toNat)) (fun k => s.memRead .coef k) s.deg.toNat x) } ∧
    encode (.eval x) = 0x20#8 ++ x ++ 0x00#8 ++ 0x00#8 ∧
    (x = 0x00#8 ∨ s.deg = 0x00#8 →
      exec (.eval x) s = .next { s with cmd := none, rsp := some (0x00#8 ++ s.memRead .coef 0) }) ∧
    (s.TablesBuilt → exec (.eval 0x01#8) s = .next { s with cmd := none, rsp := some (0x00#8 ++
      (List.range (s.deg.toNat + 1)).foldl (fun acc k => acc ^^^ s.memRead .coef k) 0x00#8) }) ∧
    ∀ s' : State, s'.deg = s.deg → s'.mult = s.mult → s'.epoch = s.epoch →
      (∀ k, k ≤ s.deg.toNat → s'.memRead .coef k = s.memRead .coef k) →
      ∀ t t', exec (.eval x) s = .next t → exec (.eval x) s' = .next t' → t'.rsp = t.rsp

/-- R121: the two short-cuts do not change the value: `evaluate(C, d, x) == h_0` of the plain recurrence. -/
def Obligations.ShortcutsKeepValue : Prop :=
  ∀ (c : Nat → Byte) (d : Nat) (x : Byte), evaluate gfMulb c d x = plainHorner gfMulb c x d (c d)

/-- R120: `evaluate(C, d, x)` is the value of the polynomial `C[0] + C[1] x + ... + C[d] x^d` over GF(2^8). -/
def Obligations.EvaluateIsPolynomialValue : Prop :=
  ∀ (c : Nat → Byte) (d : Nat) (x : Byte), evaluate gfMulb c d x = polyValue c x d

/-- R124: `MEVAL` puts the value at each live point in that point's entry of `YS` and changes nothing else, with R124's
corner cases. -/
def Obligations.MevalRespond : Prop :=
  ∀ s : State, ∃ t, exec .meval s = .next t ∧ t.rsp = some 0x0000#16 ∧
    (∀ S j, t.memRead S j = if S = .ys ∧ j < s.ns.toNat then
      evaluate (fun a b => s.memRead .mult (256 * a.toNat + b.toNat)) (fun k => s.memRead .coef k) s.deg.toNat
        (s.memRead .xs j) else s.memRead S j) ∧
    t = { s with ys := t.ys, cmd := none, rsp := t.rsp } ∧
    (s.ns = 0x00#8 → t.ys = s.ys) ∧
    (∀ k, k < s.ns.toNat → s.memRead .xs k = 0x00#8 ∨ s.deg = 0x00#8 → t.memRead .ys k = s.memRead .coef 0) ∧
    (∀ j k, j < s.ns.toNat → k < s.ns.toNat → s.memRead .xs j = s.memRead .xs k → t.memRead .ys j = t.memRead .ys k) ∧
    encode .meval = 0x21000000#32

/-- R126: a lane of `MEVAL` depends on its own point, the coefficients and the degree only; the inactive lanes keep their
values; running `MEVAL` twice leaves the state of running it once. -/
def Obligations.MevalLanes : Prop :=
  (∀ (s s' t t' : State) (k : Nat), s'.deg = s.deg → s'.mult = s.mult → s'.epoch = s.epoch →
    (∀ j, j ≤ s.deg.toNat → s'.memRead .coef j = s.memRead .coef j) → s'.memRead .xs k = s.memRead .xs k →
    k < s.ns.toNat → k < s'.ns.toNat → exec .meval s = .next t → exec .meval s' = .next t' →
    t'.memRead .ys k = t.memRead .ys k) ∧
  (∀ (s t : State) (k : Nat), s.ns.toNat ≤ k → exec .meval s = .next t → t.memRead .ys k = s.memRead .ys k) ∧
  ∀ s t u : State, exec .meval s = .next t → exec .meval t = .next u → u = t

/-- R125: on built tables the coefficient-major schedule of the MAC pipeline computes what `MEVAL` writes. -/
def Obligations.PipelineComputesMeval : Prop :=
  ∀ s t : State, s.TablesBuilt → exec .meval s = .next t →
    (List.range s.ns.toNat).map (fun k => t.memRead .ys k) =
      macPipeline (fun a b => s.memRead .mult (256 * a.toNat + b.toNat)) (fun k => s.memRead .coef k) s.deg.toNat
        ((List.range s.ns.toNat).map fun k => s.memRead .xs k)

/-- R130: `INTERP` responds with `interpolate(XS, YS, NS, x)`, or raises DomainError where that does, and writes nothing
else; it completes outside the case of R131 and raises DomainError in it; with R130's corner cases. -/
def Obligations.InterpRespond : Prop :=
  ∀ (x : Byte) (s : State),
    (exec (.interp x) s = match interpolate s.gfMul s.gfDiv true (fun k => s.memRead .xs k) (fun k => s.memRead .ys k)
        s.ns.toNat x with
      | some v => .next { s with cmd := none, rsp := some (0x00#8 ++ v) }
      | none => .next { s with status := s.status ||| 0x02#8, cmd := none, rsp := some 0x0200#16 }) ∧
    encode (.interp x) = 0x22#8 ++ x ++ 0x00#8 ++ 0x00#8 ∧
    (s.TablesBuilt → ¬s.RepeatCase x →
      ∃ v : Byte, exec (.interp x) s = .next { s with cmd := none, rsp := some (0x00#8 ++ v) }) ∧
    (s.TablesBuilt → s.RepeatCase x →
      exec (.interp x) s = .next { s with status := s.status ||| 0x02#8, cmd := none, rsp := some 0x0200#16 }) ∧
    (∀ k, k < s.ns.toNat → s.memRead .xs k = x → (∀ j, j < k → s.memRead .xs j ≠ x) →
      exec (.interp x) s = .next { s with cmd := none, rsp := some (0x00#8 ++ s.memRead .ys k) }) ∧
    (s.ns = 0x00#8 → exec (.interp x) s = .next { s with cmd := none, rsp := some 0x0000#16 }) ∧
    (s.TablesBuilt → s.ns = 0x01#8 →
      exec (.interp x) s = .next { s with cmd := none, rsp := some (0x00#8 ++ s.memRead .ys 0) }) ∧
    ((∀ k, k < s.ns.toNat → s.memRead .ys k = 0x00#8) →
      exec (.interp x) s = .next { s with cmd := none, rsp := some 0x0000#16 })

/-- R128: if a live x equals the point, the response is the y of the lowest such sample and no error arises, even when
other samples have repeated x values; if none does, every numerator is non-zero. -/
def Obligations.ExactMatchComesFirst : Prop :=
  ∀ (x : Byte) (s : State),
    (∀ k, k < s.ns.toNat → s.memRead .xs k = x → (∀ j, j < k → s.memRead .xs j ≠ x) →
      exec (.interp x) s = .next { s with cmd := none, rsp := some (0x00#8 ++ s.memRead .ys k) }) ∧
    (s.TablesBuilt → (∀ k, k < s.ns.toNat → s.memRead .xs k ≠ x) → ∀ i, i < s.ns.toNat →
      basisProduct s.gfMul (fun k => s.memRead .xs k) s.ns.toNat i x ≠ 0x00#8)

/-- R129: on built tables skipping a zero-y term changes no result when the live x values are pairwise distinct, and
where it does change one, a skipped sample repeats another live x; this hardware always skips. -/
def Obligations.ZeroTermSkip : Prop :=
  Config.skipZeroY = true ∧
  ∀ (x : Byte) (s : State), s.TablesBuilt →
    let value := fun skip =>
      interpolate s.gfMul s.gfDiv skip (fun k => s.memRead .xs k) (fun k => s.memRead .ys k) s.ns.toNat x
    (s.DistinctXs → value true = value false) ∧
    (value true ≠ value false → value false = none ∧ ∃ i, i < s.ns.toNat ∧ s.memRead .ys i = 0x00#8 ∧
      ∃ j, j < s.ns.toNat ∧ j ≠ i ∧ s.memRead .xs j = s.memRead .xs i)

/-- R131: on built tables `INTERP x` raises DomainError exactly when R131's three conditions hold, and then only DOMERR
and the response change. -/
def Obligations.InterpDomainErrorExactly : Prop :=
  ∀ (x : Byte) (s : State), s.TablesBuilt →
    (exec (.interp x) s = .next { s with status := s.status ||| 0x02#8, cmd := none, rsp := some 0x0200#16 } ↔
      1 ≤ s.ns.toNat ∧ (∀ i, i < s.ns.toNat → s.memRead .xs i ≠ x) ∧
      ∃ i, i < s.ns.toNat ∧ s.memRead .ys i ≠ 0x00#8 ∧
        ∃ j, j < s.ns.toNat ∧ j ≠ i ∧ s.memRead .xs j = s.memRead .xs i)

/-- R133 (b), (c): if the live x values are pairwise distinct and the samples lie on a polynomial of degree below `NS`,
then `INTERP x` responds with the value of that polynomial at every `x`. -/
def Obligations.InterpRecoversPolynomial : Prop :=
  ∀ (c : Nat → Byte) (d : Nat) (x : Byte) (s : State), s.TablesBuilt → s.DistinctXs → d < s.ns.toNat →
    (∀ k, k < s.ns.toNat → s.memRead .ys k = evaluate gfMulb c d (s.memRead .xs k)) →
    exec (.interp x) s = .next { s with cmd := none, rsp := some (0x00#8 ++ evaluate gfMulb c d x) }

/-- R133 (c): after `MEVAL` at `NS >= DEG + 1` pairwise distinct points, `INTERP x` responds as `EVAL x` does, and
`INTERP 0x00` with `COEF[0]`, the secret byte. -/
def Obligations.SplitThenCombine : Prop :=
  ∀ s t : State, s.TablesBuilt → s.DistinctXs → s.deg.toNat < s.ns.toNat → exec .meval s = .next t →
    (∀ x : Byte, exec (.interp x) t = exec (.eval x) t) ∧
    exec (.interp 0x00#8) t = .next { t with cmd := none, rsp := some (0x00#8 ++ s.memRead .coef 0) }

/-- R133 (e): reordering the samples does not change the response when the live x values are pairwise distinct. -/
def Obligations.SampleOrderIrrelevant : Prop :=
  ∀ (p : Nat → Nat) (x : Byte) (s s' t t' : State), s.TablesBuilt → s'.TablesBuilt → s.DistinctXs → s'.ns = s.ns →
    (∀ k, k < s.ns.toNat → p k < s.ns.toNat) →
    (∀ j k, j < s.ns.toNat → k < s.ns.toNat → p j = p k → j = k) →
    (∀ k, k < s.ns.toNat → s'.memRead .xs k = s.memRead .xs (p k) ∧ s'.memRead .ys k = s.memRead .ys (p k)) →
    exec (.interp x) s = .next t → exec (.interp x) s' = .next t' → t'.rsp = t.rsp

/-! ### Status and errors (43_system.md, 60_exceptions.md) -/

/-- R140: `RDST` responds with STATUS, its reserved bits 0, and clears nothing; on a ready unit the data is one of 0x01,
0x03, 0x05 and 0x07. -/
def Obligations.RdstRespond : Prop :=
  ∀ s : State,
    exec .rdst s = .next { s with cmd := none, rsp := some (0x00#8 ++
      (0#5 ++ BitVec.ofBool s.illerr ++ BitVec.ofBool s.domerr ++ BitVec.ofBool s.ready : BitVec 8)) } ∧
    encode .rdst = 0x30000000#32 ∧
    (s.ready = true → ∃ v ∈ [0x01#8, 0x03#8, 0x05#8, 0x07#8],
      exec .rdst s = .next { s with cmd := none, rsp := some (0x00#8 ++ v) })

/-- R153: on built tables each command answers `ERR_DOMAIN` exactly in its case of R153's table and `OK` otherwise. -/
def Obligations.OutcomeOfEachCommand : Prop :=
  ∀ (i : Instr) (s : State), s.TablesBuilt → ∃ t, exec i s = .next t ∧
    (s.DomainCase i → t.rsp = some 0x0200#16) ∧ (¬s.DomainCase i → ∃ v : Byte, t.rsp = some (0x00#8 ++ v))

/-- R151, R152, R156: an error changes exactly one sticky flag and the response; whatever answers `ERR_DOMAIN` or
`ERR_ILLEGAL` leaves every register, memory and table as it was. -/
def Obligations.ErrorsChangeOnlyTheirFlag : Prop :=
  ∀ s t : State, s.rst = false → s.ready = true → s.rsp = none → s.cmd.isSome = true → step s = .next t →
    (t.rsp = some 0x0200#16 → t = { s with status := s.status ||| 0x02#8, cmd := none, rsp := some 0x0200#16 }) ∧
    (t.rsp = some 0x0100#16 → t = { s with status := s.status ||| 0x04#8, cmd := none, rsp := some 0x0100#16 })

/-- R155: decoding comes before execution: the word 0x04000100, like `INV` of zero but with a non-zero `B`, is illegal and
no domain error. -/
def Obligations.IllegalBeforeDomain : Prop :=
  ∀ s : State, s.rst = false → s.ready = true → s.rsp = none → s.cmd = some 0x04000100#32 →
    ∃ t, step s = .next t ∧ t.rsp = some 0x0100#16 ∧ t.illerr = true ∧ t.domerr = s.domerr

/-! ### Frames -/

/-- The commands that write no state on success change the command and response latches only, and DOMERR where they raise
DomainError: every register, every byte of every space, every wire and every other flag is as before. -/
def Obligations.FrameOfReadOnlyCommands : Prop :=
  ∀ (a b : Byte) (s t : State),
    ∀ i ∈ [Instr.add a b, .sub a b, .mul a b, .inv a, .div a b, .mulb a b, .invb a, .rdc a, .rdx a, .rdy a, .rddeg, .rdns,
        .eval a, .interp a, .rdst],
      exec i s = .next t →
      t.deg = s.deg ∧ t.ns = s.ns ∧ t.coef = s.coef ∧ t.xs = s.xs ∧ t.ys = s.ys ∧ t.mult = s.mult ∧ t.invt = s.invt ∧
      (∀ S j, t.memRead S j = s.memRead S j) ∧ t.rst = s.rst ∧ t.rspReady = s.rspReady ∧ t.cmdIn = s.cmdIn ∧
      t.rspOut = s.rspOut ∧ t.epoch = s.epoch ∧
      (t.status = s.status ∨ (t.status = s.status ||| 0x02#8 ∧ i ∈ [Instr.inv a, .div a b, .invb a, .interp a]))

/-- The commands that write state change what they are said to write and the command and response latches: every other
register, every flag, and every byte of every space outside the stored ones is as before. -/
def Obligations.FrameOfWritingCommands : Prop :=
  ∀ (k v : Byte) (s t : State),
    (exec (.setdeg v) s = .next t → (∀ S j, t.memRead S j = s.memRead S j) ∧ t.ns = s.ns ∧ t.status = s.status) ∧
    (exec (.setns v) s = .next t → (∀ S j, t.memRead S j = s.memRead S j) ∧ t.deg = s.deg ∧ t.status = s.status) ∧
    (exec (.ldc k v) s = .next t →
      (∀ S j, S ≠ .coef ∨ j ≠ effIndex k → t.memRead S j = s.memRead S j) ∧
      t.deg = s.deg ∧ t.ns = s.ns ∧ t.status = s.status) ∧
    (exec (.ldx k v) s = .next t →
      (∀ S j, S ≠ .xs ∨ j ≠ effIndex k → t.memRead S j = s.memRead S j) ∧
      t.deg = s.deg ∧ t.ns = s.ns ∧ t.status = s.status) ∧
    (exec (.ldy k v) s = .next t →
      (∀ S j, S ≠ .ys ∨ j ≠ effIndex k → t.memRead S j = s.memRead S j) ∧
      t.deg = s.deg ∧ t.ns = s.ns ∧ t.status = s.status) ∧
    (exec .meval s = .next t →
      (∀ S j, S ≠ .ys ∨ s.ns.toNat ≤ j → t.memRead S j = s.memRead S j) ∧
      t.deg = s.deg ∧ t.ns = s.ns ∧ t.status = s.status) ∧
    ∀ i ∈ [Instr.setdeg v, .setns v, .ldc k v, .ldx k v, .ldy k v, .meval], exec i s = .next t →
      t.mult = s.mult ∧ t.invt = s.invt ∧ t.rst = s.rst ∧ t.rspReady = s.rspReady ∧ t.cmdIn = s.cmdIn ∧
      t.rspOut = s.rspOut ∧ t.epoch = s.epoch

/-- The count of 95_test_vectors.md section 2.9: of the 2^32 command words exactly 526596 are legal. -/
def Obligations.LegalWordCount : Prop :=
  Nat.card { w : CmdWord // ∃ i, decode w = .ok i } = 526596

/-! ### Unwritten entries -/

/-- R110, U3: a read command of an entry that holds no written byte responds with the free byte of that entry, without
error, and an entry stays unwritten, with its free byte, until something writes it or reset. That an unwritten entry
holds a free byte is the model's choice among those U3 offers (log entry 3); the statement holds whatever the byte is. -/
def Obligations.UnwrittenEntriesReadFree : Prop :=
  (∀ (k : Byte) (s : State),
    (s.stored? .coef k.toNat = none → exec (.rdc k) s = .next { s with cmd := none, rsp := some (0x00#8 ++
      Config.unspecifiedByte .coef s.epoch k.toNat) }) ∧
    (s.stored? .xs k.toNat = none → exec (.rdx k) s = .next { s with cmd := none, rsp := some (0x00#8 ++
      Config.unspecifiedByte .xs s.epoch k.toNat) }) ∧
    (s.stored? .ys k.toNat = none → exec (.rdy k) s = .next { s with cmd := none, rsp := some (0x00#8 ++
      Config.unspecifiedByte .ys s.epoch k.toNat) })) ∧
  ∀ (s t : State) (S : Space) (j : Nat), S ∈ [.coef, .xs, .ys] → s.rst = false → step s = .next t →
    t.stored? S j = none → s.stored? S j = none ∧ t.memRead S j = s.memRead S j
end

