-- ==== Sys2Proof/Laws/Encoding.lean ====
section
/-! SUPPORT. The fields of a word and the word of the fields (30_encoding.md R60) are inverse to each other. -/

namespace Sys2Proof

/-- The fields of a word put together from fields are those fields. -/
@[simp] theorem fieldsOf_wordOf (f : Fields) : fieldsOf (wordOf f) = f := by
  obtain ⟨op, a, b, z⟩ := f
  simp only [fieldsOf, wordOf, Fields.mk.injEq]
  refine ⟨?_, ?_, ?_, ?_⟩ <;> ext i hi <;>
    simp only [BitVec.getElem_extractLsb', BitVec.getLsbD_append] <;>
    repeat' (first | rw [if_pos (by omega)] | rw [if_neg (by omega)])
  all_goals (rw [BitVec.getLsbD_eq_getElem (by omega)]; congr 1; omega)

/-- The word put together from a word's fields is that word: the four fields are all of it. -/
@[simp] theorem wordOf_fieldsOf (w : CmdWord) : wordOf (fieldsOf w) = w := by
  simp only [fieldsOf, wordOf]
  ext i hi
  simp only [BitVec.getElem_append, BitVec.getElem_extractLsb']
  split
  · simp [BitVec.getLsbD_eq_getElem, hi]
  · split
    · rw [BitVec.getLsbD_eq_getElem (by omega)]; congr 1; omega
    · split
      · rw [BitVec.getLsbD_eq_getElem (by omega)]; congr 1; omega
      · rw [BitVec.getLsbD_eq_getElem (by omega)]; congr 1; omega

/-! ### Serialised words (20_memory.md R42) -/

/-- The bytes of a word put together from fields are those fields, in order. -/
@[simp] theorem cmdBytes_wordOf (f : Fields) : cmdBytes (wordOf f) = [f.op, f.a, f.b, f.z] := by simp [cmdBytes]

/-- The word read from four bytes and more has the bytes as its fields. -/
@[simp] theorem cmdOfBytes_cons (op a b z : Byte) (rest : List Byte) :
    cmdOfBytes (op :: a :: b :: z :: rest) = some (wordOf { op := op, a := a, b := b, z := z }, rest) := rfl

/-- The response word read from two bytes and more has the first as its status. -/
@[simp] theorem rspOfBytes_cons (st data : Byte) (rest : List Byte) :
    rspOfBytes (st :: data :: rest) = some (st ++ data, rest) := rfl

/-- The bytes of a command are its fields, in order. -/
theorem encodeBytes_eq (i : Instr) :
    encodeBytes i = [(encodeFields i).op, (encodeFields i).a, (encodeFields i).b, (encodeFields i).z] := by
  simp [encodeBytes, encode]

/-- Everything decoding a byte sequence can answer when it accepts: a word, then the rest, and the word decodes. -/
theorem decodeBytes_ok {bs rest : List Byte} {i : Instr} (h : decodeBytes bs = .ok (i, rest)) :
    ∃ w, cmdOfBytes bs = some (w, rest) ∧ decode w = .ok i := by
  unfold decodeBytes at h
  split at h
  · cases h
  · rename_i w rest' hw
    split at h
    · rename_i j hj
      cases h
      exact ⟨w, hw, hj⟩
    · cases h

/-- Everything the field decoder can answer when it accepts: a row of the opcode map, with the row's reserved fields zero. -/
theorem decodeFields_ok {f : Fields} {i : Instr} (h : decodeFields f = .ok i) :
    ∃ fmt mk, opcodeRow f.op = some (fmt, mk) ∧ f.wellFormed fmt = true ∧ i = mk f.a f.b := by
  unfold decodeFields at h
  split at h
  · cases h
  · rename_i fmt mk hrow
    split at h
    · cases h
    split at h
    · cases h
    split at h
    · cases h
    rename_i h1 h2 h3
    refine ⟨fmt, mk, hrow, ?_, (Except.ok.inj h).symm⟩
    cases fmt <;> simp_all [Fields.wellFormed]

end Sys2Proof
end

