-- ==== Sys2Proof/Laws/State.lean ====
section
/-! SUPPORT. What each update of State leaves in each field: one lemma per field per update. -/

namespace Sys2Proof.Machine

variable (s : State)

/-! ### setReady -/

@[simp] theorem State.setReady_deg : s.setReady.deg = s.deg := rfl
@[simp] theorem State.setReady_ns : s.setReady.ns = s.ns := rfl
@[simp] theorem State.setReady_coef : s.setReady.coef = s.coef := rfl
@[simp] theorem State.setReady_xs : s.setReady.xs = s.xs := rfl
@[simp] theorem State.setReady_ys : s.setReady.ys = s.ys := rfl
@[simp] theorem State.setReady_mult : s.setReady.mult = s.mult := rfl
@[simp] theorem State.setReady_invt : s.setReady.invt = s.invt := rfl
@[simp] theorem State.setReady_status : s.setReady.status = s.status ||| readyBit := rfl
@[simp] theorem State.setReady_cmd : s.setReady.cmd = s.cmd := rfl
@[simp] theorem State.setReady_rsp : s.setReady.rsp = s.rsp := rfl
@[simp] theorem State.setReady_rst : s.setReady.rst = s.rst := rfl
@[simp] theorem State.setReady_rspReady : s.setReady.rspReady = s.rspReady := rfl
@[simp] theorem State.setReady_cmdIn : s.setReady.cmdIn = s.cmdIn := rfl
@[simp] theorem State.setReady_rspOut : s.setReady.rspOut = s.rspOut := rfl
@[simp] theorem State.setReady_epoch : s.setReady.epoch = s.epoch := rfl

/-! ### setDomerr -/

@[simp] theorem State.setDomerr_deg : s.setDomerr.deg = s.deg := rfl
@[simp] theorem State.setDomerr_ns : s.setDomerr.ns = s.ns := rfl
@[simp] theorem State.setDomerr_coef : s.setDomerr.coef = s.coef := rfl
@[simp] theorem State.setDomerr_xs : s.setDomerr.xs = s.xs := rfl
@[simp] theorem State.setDomerr_ys : s.setDomerr.ys = s.ys := rfl
@[simp] theorem State.setDomerr_mult : s.setDomerr.mult = s.mult := rfl
@[simp] theorem State.setDomerr_invt : s.setDomerr.invt = s.invt := rfl
@[simp] theorem State.setDomerr_status : s.setDomerr.status = s.status ||| domerrBit := rfl
@[simp] theorem State.setDomerr_cmd : s.setDomerr.cmd = s.cmd := rfl
@[simp] theorem State.setDomerr_rsp : s.setDomerr.rsp = s.rsp := rfl
@[simp] theorem State.setDomerr_rst : s.setDomerr.rst = s.rst := rfl
@[simp] theorem State.setDomerr_rspReady : s.setDomerr.rspReady = s.rspReady := rfl
@[simp] theorem State.setDomerr_cmdIn : s.setDomerr.cmdIn = s.cmdIn := rfl
@[simp] theorem State.setDomerr_rspOut : s.setDomerr.rspOut = s.rspOut := rfl
@[simp] theorem State.setDomerr_epoch : s.setDomerr.epoch = s.epoch := rfl

/-! ### setIllerr -/

@[simp] theorem State.setIllerr_deg : s.setIllerr.deg = s.deg := rfl
@[simp] theorem State.setIllerr_ns : s.setIllerr.ns = s.ns := rfl
@[simp] theorem State.setIllerr_coef : s.setIllerr.coef = s.coef := rfl
@[simp] theorem State.setIllerr_xs : s.setIllerr.xs = s.xs := rfl
@[simp] theorem State.setIllerr_ys : s.setIllerr.ys = s.ys := rfl
@[simp] theorem State.setIllerr_mult : s.setIllerr.mult = s.mult := rfl
@[simp] theorem State.setIllerr_invt : s.setIllerr.invt = s.invt := rfl
@[simp] theorem State.setIllerr_status : s.setIllerr.status = s.status ||| illerrBit := rfl
@[simp] theorem State.setIllerr_cmd : s.setIllerr.cmd = s.cmd := rfl
@[simp] theorem State.setIllerr_rsp : s.setIllerr.rsp = s.rsp := rfl
@[simp] theorem State.setIllerr_rst : s.setIllerr.rst = s.rst := rfl
@[simp] theorem State.setIllerr_rspReady : s.setIllerr.rspReady = s.rspReady := rfl
@[simp] theorem State.setIllerr_cmdIn : s.setIllerr.cmdIn = s.cmdIn := rfl
@[simp] theorem State.setIllerr_rspOut : s.setIllerr.rspOut = s.rspOut := rfl
@[simp] theorem State.setIllerr_epoch : s.setIllerr.epoch = s.epoch := rfl

/-! ### writeCoef -/

@[simp] theorem State.writeCoef_deg (i : Nat) (v : Byte) : (s.writeCoef i v).deg = s.deg := rfl
@[simp] theorem State.writeCoef_ns (i : Nat) (v : Byte) : (s.writeCoef i v).ns = s.ns := rfl
@[simp] theorem State.writeCoef_coef (i : Nat) (v : Byte) : (s.writeCoef i v).coef = s.coef.write i v := rfl
@[simp] theorem State.writeCoef_xs (i : Nat) (v : Byte) : (s.writeCoef i v).xs = s.xs := rfl
@[simp] theorem State.writeCoef_ys (i : Nat) (v : Byte) : (s.writeCoef i v).ys = s.ys := rfl
@[simp] theorem State.writeCoef_mult (i : Nat) (v : Byte) : (s.writeCoef i v).mult = s.mult := rfl
@[simp] theorem State.writeCoef_invt (i : Nat) (v : Byte) : (s.writeCoef i v).invt = s.invt := rfl
@[simp] theorem State.writeCoef_status (i : Nat) (v : Byte) : (s.writeCoef i v).status = s.status := rfl
@[simp] theorem State.writeCoef_cmd (i : Nat) (v : Byte) : (s.writeCoef i v).cmd = s.cmd := rfl
@[simp] theorem State.writeCoef_rsp (i : Nat) (v : Byte) : (s.writeCoef i v).rsp = s.rsp := rfl
@[simp] theorem State.writeCoef_rst (i : Nat) (v : Byte) : (s.writeCoef i v).rst = s.rst := rfl
@[simp] theorem State.writeCoef_rspReady (i : Nat) (v : Byte) : (s.writeCoef i v).rspReady = s.rspReady := rfl
@[simp] theorem State.writeCoef_cmdIn (i : Nat) (v : Byte) : (s.writeCoef i v).cmdIn = s.cmdIn := rfl
@[simp] theorem State.writeCoef_rspOut (i : Nat) (v : Byte) : (s.writeCoef i v).rspOut = s.rspOut := rfl
@[simp] theorem State.writeCoef_epoch (i : Nat) (v : Byte) : (s.writeCoef i v).epoch = s.epoch := rfl

/-! ### writeXs -/

@[simp] theorem State.writeXs_deg (k : Nat) (v : Byte) : (s.writeXs k v).deg = s.deg := rfl
@[simp] theorem State.writeXs_ns (k : Nat) (v : Byte) : (s.writeXs k v).ns = s.ns := rfl
@[simp] theorem State.writeXs_coef (k : Nat) (v : Byte) : (s.writeXs k v).coef = s.coef := rfl
@[simp] theorem State.writeXs_xs (k : Nat) (v : Byte) : (s.writeXs k v).xs = s.xs.write k v := rfl
@[simp] theorem State.writeXs_ys (k : Nat) (v : Byte) : (s.writeXs k v).ys = s.ys := rfl
@[simp] theorem State.writeXs_mult (k : Nat) (v : Byte) : (s.writeXs k v).mult = s.mult := rfl
@[simp] theorem State.writeXs_invt (k : Nat) (v : Byte) : (s.writeXs k v).invt = s.invt := rfl
@[simp] theorem State.writeXs_status (k : Nat) (v : Byte) : (s.writeXs k v).status = s.status := rfl
@[simp] theorem State.writeXs_cmd (k : Nat) (v : Byte) : (s.writeXs k v).cmd = s.cmd := rfl
@[simp] theorem State.writeXs_rsp (k : Nat) (v : Byte) : (s.writeXs k v).rsp = s.rsp := rfl
@[simp] theorem State.writeXs_rst (k : Nat) (v : Byte) : (s.writeXs k v).rst = s.rst := rfl
@[simp] theorem State.writeXs_rspReady (k : Nat) (v : Byte) : (s.writeXs k v).rspReady = s.rspReady := rfl
@[simp] theorem State.writeXs_cmdIn (k : Nat) (v : Byte) : (s.writeXs k v).cmdIn = s.cmdIn := rfl
@[simp] theorem State.writeXs_rspOut (k : Nat) (v : Byte) : (s.writeXs k v).rspOut = s.rspOut := rfl
@[simp] theorem State.writeXs_epoch (k : Nat) (v : Byte) : (s.writeXs k v).epoch = s.epoch := rfl

/-! ### writeYs -/

@[simp] theorem State.writeYs_deg (k : Nat) (v : Byte) : (s.writeYs k v).deg = s.deg := rfl
@[simp] theorem State.writeYs_ns (k : Nat) (v : Byte) : (s.writeYs k v).ns = s.ns := rfl
@[simp] theorem State.writeYs_coef (k : Nat) (v : Byte) : (s.writeYs k v).coef = s.coef := rfl
@[simp] theorem State.writeYs_xs (k : Nat) (v : Byte) : (s.writeYs k v).xs = s.xs := rfl
@[simp] theorem State.writeYs_ys (k : Nat) (v : Byte) : (s.writeYs k v).ys = s.ys.write k v := rfl
@[simp] theorem State.writeYs_mult (k : Nat) (v : Byte) : (s.writeYs k v).mult = s.mult := rfl
@[simp] theorem State.writeYs_invt (k : Nat) (v : Byte) : (s.writeYs k v).invt = s.invt := rfl
@[simp] theorem State.writeYs_status (k : Nat) (v : Byte) : (s.writeYs k v).status = s.status := rfl
@[simp] theorem State.writeYs_cmd (k : Nat) (v : Byte) : (s.writeYs k v).cmd = s.cmd := rfl
@[simp] theorem State.writeYs_rsp (k : Nat) (v : Byte) : (s.writeYs k v).rsp = s.rsp := rfl
@[simp] theorem State.writeYs_rst (k : Nat) (v : Byte) : (s.writeYs k v).rst = s.rst := rfl
@[simp] theorem State.writeYs_rspReady (k : Nat) (v : Byte) : (s.writeYs k v).rspReady = s.rspReady := rfl
@[simp] theorem State.writeYs_cmdIn (k : Nat) (v : Byte) : (s.writeYs k v).cmdIn = s.cmdIn := rfl
@[simp] theorem State.writeYs_rspOut (k : Nat) (v : Byte) : (s.writeYs k v).rspOut = s.rspOut := rfl
@[simp] theorem State.writeYs_epoch (k : Nat) (v : Byte) : (s.writeYs k v).epoch = s.epoch := rfl

/-! ### writeYsRun -/

@[simp] theorem State.writeYsRun_deg (vs : List Byte) : (s.writeYsRun vs).deg = s.deg := rfl
@[simp] theorem State.writeYsRun_ns (vs : List Byte) : (s.writeYsRun vs).ns = s.ns := rfl
@[simp] theorem State.writeYsRun_coef (vs : List Byte) : (s.writeYsRun vs).coef = s.coef := rfl
@[simp] theorem State.writeYsRun_xs (vs : List Byte) : (s.writeYsRun vs).xs = s.xs := rfl
@[simp] theorem State.writeYsRun_ys (vs : List Byte) : (s.writeYsRun vs).ys = s.ys.writeRun 0 vs := rfl
@[simp] theorem State.writeYsRun_mult (vs : List Byte) : (s.writeYsRun vs).mult = s.mult := rfl
@[simp] theorem State.writeYsRun_invt (vs : List Byte) : (s.writeYsRun vs).invt = s.invt := rfl
@[simp] theorem State.writeYsRun_status (vs : List Byte) : (s.writeYsRun vs).status = s.status := rfl
@[simp] theorem State.writeYsRun_cmd (vs : List Byte) : (s.writeYsRun vs).cmd = s.cmd := rfl
@[simp] theorem State.writeYsRun_rsp (vs : List Byte) : (s.writeYsRun vs).rsp = s.rsp := rfl
@[simp] theorem State.writeYsRun_rst (vs : List Byte) : (s.writeYsRun vs).rst = s.rst := rfl
@[simp] theorem State.writeYsRun_rspReady (vs : List Byte) : (s.writeYsRun vs).rspReady = s.rspReady := rfl
@[simp] theorem State.writeYsRun_cmdIn (vs : List Byte) : (s.writeYsRun vs).cmdIn = s.cmdIn := rfl
@[simp] theorem State.writeYsRun_rspOut (vs : List Byte) : (s.writeYsRun vs).rspOut = s.rspOut := rfl
@[simp] theorem State.writeYsRun_epoch (vs : List Byte) : (s.writeYsRun vs).epoch = s.epoch := rfl

/-! ### setDeg -/

@[simp] theorem State.setDeg_deg (d : Byte) : (s.setDeg d).deg = d := rfl
@[simp] theorem State.setDeg_ns (d : Byte) : (s.setDeg d).ns = s.ns := rfl
@[simp] theorem State.setDeg_coef (d : Byte) : (s.setDeg d).coef = s.coef := rfl
@[simp] theorem State.setDeg_xs (d : Byte) : (s.setDeg d).xs = s.xs := rfl
@[simp] theorem State.setDeg_ys (d : Byte) : (s.setDeg d).ys = s.ys := rfl
@[simp] theorem State.setDeg_mult (d : Byte) : (s.setDeg d).mult = s.mult := rfl
@[simp] theorem State.setDeg_invt (d : Byte) : (s.setDeg d).invt = s.invt := rfl
@[simp] theorem State.setDeg_status (d : Byte) : (s.setDeg d).status = s.status := rfl
@[simp] theorem State.setDeg_cmd (d : Byte) : (s.setDeg d).cmd = s.cmd := rfl
@[simp] theorem State.setDeg_rsp (d : Byte) : (s.setDeg d).rsp = s.rsp := rfl
@[simp] theorem State.setDeg_rst (d : Byte) : (s.setDeg d).rst = s.rst := rfl
@[simp] theorem State.setDeg_rspReady (d : Byte) : (s.setDeg d).rspReady = s.rspReady := rfl
@[simp] theorem State.setDeg_cmdIn (d : Byte) : (s.setDeg d).cmdIn = s.cmdIn := rfl
@[simp] theorem State.setDeg_rspOut (d : Byte) : (s.setDeg d).rspOut = s.rspOut := rfl
@[simp] theorem State.setDeg_epoch (d : Byte) : (s.setDeg d).epoch = s.epoch := rfl

/-! ### setNs -/

@[simp] theorem State.setNs_deg (n : Byte) : (s.setNs n).deg = s.deg := rfl
@[simp] theorem State.setNs_ns (n : Byte) : (s.setNs n).ns = n := rfl
@[simp] theorem State.setNs_coef (n : Byte) : (s.setNs n).coef = s.coef := rfl
@[simp] theorem State.setNs_xs (n : Byte) : (s.setNs n).xs = s.xs := rfl
@[simp] theorem State.setNs_ys (n : Byte) : (s.setNs n).ys = s.ys := rfl
@[simp] theorem State.setNs_mult (n : Byte) : (s.setNs n).mult = s.mult := rfl
@[simp] theorem State.setNs_invt (n : Byte) : (s.setNs n).invt = s.invt := rfl
@[simp] theorem State.setNs_status (n : Byte) : (s.setNs n).status = s.status := rfl
@[simp] theorem State.setNs_cmd (n : Byte) : (s.setNs n).cmd = s.cmd := rfl
@[simp] theorem State.setNs_rsp (n : Byte) : (s.setNs n).rsp = s.rsp := rfl
@[simp] theorem State.setNs_rst (n : Byte) : (s.setNs n).rst = s.rst := rfl
@[simp] theorem State.setNs_rspReady (n : Byte) : (s.setNs n).rspReady = s.rspReady := rfl
@[simp] theorem State.setNs_cmdIn (n : Byte) : (s.setNs n).cmdIn = s.cmdIn := rfl
@[simp] theorem State.setNs_rspOut (n : Byte) : (s.setNs n).rspOut = s.rspOut := rfl
@[simp] theorem State.setNs_epoch (n : Byte) : (s.setNs n).epoch = s.epoch := rfl

/-! ### respond -/

@[simp] theorem State.respond_deg (st data : Byte) : (s.respond st data).deg = s.deg := rfl
@[simp] theorem State.respond_ns (st data : Byte) : (s.respond st data).ns = s.ns := rfl
@[simp] theorem State.respond_coef (st data : Byte) : (s.respond st data).coef = s.coef := rfl
@[simp] theorem State.respond_xs (st data : Byte) : (s.respond st data).xs = s.xs := rfl
@[simp] theorem State.respond_ys (st data : Byte) : (s.respond st data).ys = s.ys := rfl
@[simp] theorem State.respond_mult (st data : Byte) : (s.respond st data).mult = s.mult := rfl
@[simp] theorem State.respond_invt (st data : Byte) : (s.respond st data).invt = s.invt := rfl
@[simp] theorem State.respond_status (st data : Byte) : (s.respond st data).status = s.status := rfl
@[simp] theorem State.respond_cmd (st data : Byte) : (s.respond st data).cmd = none := rfl
@[simp] theorem State.respond_rsp (st data : Byte) : (s.respond st data).rsp = some (rspWord st data) := rfl
@[simp] theorem State.respond_rst (st data : Byte) : (s.respond st data).rst = s.rst := rfl
@[simp] theorem State.respond_rspReady (st data : Byte) : (s.respond st data).rspReady = s.rspReady := rfl
@[simp] theorem State.respond_cmdIn (st data : Byte) : (s.respond st data).cmdIn = s.cmdIn := rfl
@[simp] theorem State.respond_rspOut (st data : Byte) : (s.respond st data).rspOut = s.rspOut := rfl
@[simp] theorem State.respond_epoch (st data : Byte) : (s.respond st data).epoch = s.epoch := rfl

/-! ### takeReset -/

@[simp] theorem State.takeReset_deg : s.takeReset.deg = 0#8 := rfl
@[simp] theorem State.takeReset_ns : s.takeReset.ns = 0#8 := rfl
@[simp] theorem State.takeReset_coef : s.takeReset.coef = [] := rfl
@[simp] theorem State.takeReset_xs : s.takeReset.xs = [] := rfl
@[simp] theorem State.takeReset_ys : s.takeReset.ys = [] := rfl
@[simp] theorem State.takeReset_mult : s.takeReset.mult = [] := rfl
@[simp] theorem State.takeReset_invt : s.takeReset.invt = [] := rfl
@[simp] theorem State.takeReset_status : s.takeReset.status = 0#8 := rfl
@[simp] theorem State.takeReset_cmd : s.takeReset.cmd = none := rfl
@[simp] theorem State.takeReset_rsp : s.takeReset.rsp = none := rfl
@[simp] theorem State.takeReset_rst : s.takeReset.rst = s.rst := rfl
@[simp] theorem State.takeReset_rspReady : s.takeReset.rspReady = s.rspReady := rfl
@[simp] theorem State.takeReset_cmdIn : s.takeReset.cmdIn = s.cmdIn := rfl
@[simp] theorem State.takeReset_rspOut : s.takeReset.rspOut = s.rspOut := rfl
@[simp] theorem State.takeReset_epoch : s.takeReset.epoch = s.epoch + 1 := rfl

/-! ### buildTables -/

@[simp] theorem State.buildTables_deg : s.buildTables.deg = s.deg := rfl
@[simp] theorem State.buildTables_ns : s.buildTables.ns = s.ns := rfl
@[simp] theorem State.buildTables_coef : s.buildTables.coef = s.coef := rfl
@[simp] theorem State.buildTables_xs : s.buildTables.xs = s.xs := rfl
@[simp] theorem State.buildTables_ys : s.buildTables.ys = s.ys := rfl
@[simp] theorem State.buildTables_mult : s.buildTables.mult = builtMult := rfl
@[simp] theorem State.buildTables_invt : s.buildTables.invt = builtInvt := rfl
@[simp] theorem State.buildTables_status : s.buildTables.status = s.status ||| readyBit := rfl
@[simp] theorem State.buildTables_cmd : s.buildTables.cmd = s.cmd := rfl
@[simp] theorem State.buildTables_rsp : s.buildTables.rsp = s.rsp := rfl
@[simp] theorem State.buildTables_rst : s.buildTables.rst = s.rst := rfl
@[simp] theorem State.buildTables_rspReady : s.buildTables.rspReady = s.rspReady := rfl
@[simp] theorem State.buildTables_cmdIn : s.buildTables.cmdIn = s.cmdIn := rfl
@[simp] theorem State.buildTables_rspOut : s.buildTables.rspOut = s.rspOut := rfl
@[simp] theorem State.buildTables_epoch : s.buildTables.epoch = s.epoch := rfl

/-! ### acceptCommand -/

@[simp] theorem State.acceptCommand_deg (w : CmdWord) (rest : List CmdWord) : (s.acceptCommand w rest).deg = s.deg := rfl
@[simp] theorem State.acceptCommand_ns (w : CmdWord) (rest : List CmdWord) : (s.acceptCommand w rest).ns = s.ns := rfl
@[simp] theorem State.acceptCommand_coef (w : CmdWord) (rest : List CmdWord) : (s.acceptCommand w rest).coef = s.coef := rfl
@[simp] theorem State.acceptCommand_xs (w : CmdWord) (rest : List CmdWord) : (s.acceptCommand w rest).xs = s.xs := rfl
@[simp] theorem State.acceptCommand_ys (w : CmdWord) (rest : List CmdWord) : (s.acceptCommand w rest).ys = s.ys := rfl
@[simp] theorem State.acceptCommand_mult (w : CmdWord) (rest : List CmdWord) : (s.acceptCommand w rest).mult = s.mult := rfl
@[simp] theorem State.acceptCommand_invt (w : CmdWord) (rest : List CmdWord) : (s.acceptCommand w rest).invt = s.invt := rfl
@[simp] theorem State.acceptCommand_status (w : CmdWord) (rest : List CmdWord) : (s.acceptCommand w rest).status = s.status := rfl
@[simp] theorem State.acceptCommand_cmd (w : CmdWord) (rest : List CmdWord) : (s.acceptCommand w rest).cmd = some w := rfl
@[simp] theorem State.acceptCommand_rsp (w : CmdWord) (rest : List CmdWord) : (s.acceptCommand w rest).rsp = s.rsp := rfl
@[simp] theorem State.acceptCommand_rst (w : CmdWord) (rest : List CmdWord) : (s.acceptCommand w rest).rst = s.rst := rfl
@[simp] theorem State.acceptCommand_rspReady (w : CmdWord) (rest : List CmdWord) : (s.acceptCommand w rest).rspReady = s.rspReady := rfl
@[simp] theorem State.acceptCommand_cmdIn (w : CmdWord) (rest : List CmdWord) : (s.acceptCommand w rest).cmdIn = rest := rfl
@[simp] theorem State.acceptCommand_rspOut (w : CmdWord) (rest : List CmdWord) : (s.acceptCommand w rest).rspOut = s.rspOut := rfl
@[simp] theorem State.acceptCommand_epoch (w : CmdWord) (rest : List CmdWord) : (s.acceptCommand w rest).epoch = s.epoch := rfl

/-! ### transferResponse -/

@[simp] theorem State.transferResponse_deg (r : RspWord) : (s.transferResponse r).deg = s.deg := rfl
@[simp] theorem State.transferResponse_ns (r : RspWord) : (s.transferResponse r).ns = s.ns := rfl
@[simp] theorem State.transferResponse_coef (r : RspWord) : (s.transferResponse r).coef = s.coef := rfl
@[simp] theorem State.transferResponse_xs (r : RspWord) : (s.transferResponse r).xs = s.xs := rfl
@[simp] theorem State.transferResponse_ys (r : RspWord) : (s.transferResponse r).ys = s.ys := rfl
@[simp] theorem State.transferResponse_mult (r : RspWord) : (s.transferResponse r).mult = s.mult := rfl
@[simp] theorem State.transferResponse_invt (r : RspWord) : (s.transferResponse r).invt = s.invt := rfl
@[simp] theorem State.transferResponse_status (r : RspWord) : (s.transferResponse r).status = s.status := rfl
@[simp] theorem State.transferResponse_cmd (r : RspWord) : (s.transferResponse r).cmd = s.cmd := rfl
@[simp] theorem State.transferResponse_rsp (r : RspWord) : (s.transferResponse r).rsp = none := rfl
@[simp] theorem State.transferResponse_rst (r : RspWord) : (s.transferResponse r).rst = s.rst := rfl
@[simp] theorem State.transferResponse_rspReady (r : RspWord) : (s.transferResponse r).rspReady = s.rspReady := rfl
@[simp] theorem State.transferResponse_cmdIn (r : RspWord) : (s.transferResponse r).cmdIn = s.cmdIn := rfl
@[simp] theorem State.transferResponse_rspOut (r : RspWord) : (s.transferResponse r).rspOut = s.rspOut ++ [r] := rfl
@[simp] theorem State.transferResponse_epoch (r : RspWord) : (s.transferResponse r).epoch = s.epoch := rfl

/-! ### Responses are `respond` after at most one flag -/

@[simp] theorem State.respondOk_eq (data : Byte) : s.respondOk data = s.respond stOk data := rfl
@[simp] theorem State.respondDone_eq : s.respondDone = s.respond stOk 0x00#8 := rfl
@[simp] theorem State.raiseIllegal_eq : s.raiseIllegal = s.setIllerr.respond stIllegal 0x00#8 := rfl
@[simp] theorem State.raiseDomain_eq : s.raiseDomain = s.setDomerr.respond stDomain 0x00#8 := rfl
@[simp] theorem State.respondResult_some (v : Byte) : s.respondResult (some v) = s.respond stOk v := rfl
@[simp] theorem State.respondResult_none : s.respondResult none = s.setDomerr.respond stDomain 0x00#8 := rfl

/-! ### What the bytes of the spaces read as after an update that writes none of them -/

@[simp] theorem State.memRead_setReady (S : Space) (i : Nat) : s.setReady.memRead S i = s.memRead S i := by
  cases S <;> rfl
@[simp] theorem State.memRead_setDomerr (S : Space) (i : Nat) : s.setDomerr.memRead S i = s.memRead S i := by
  cases S <;> rfl
@[simp] theorem State.memRead_setIllerr (S : Space) (i : Nat) : s.setIllerr.memRead S i = s.memRead S i := by
  cases S <;> rfl
@[simp] theorem State.memRead_setDeg (d : Byte) (S : Space) (i : Nat) : (s.setDeg d).memRead S i = s.memRead S i := by
  cases S <;> rfl
@[simp] theorem State.memRead_setNs (n : Byte) (S : Space) (i : Nat) : (s.setNs n).memRead S i = s.memRead S i := by
  cases S <;> rfl
@[simp] theorem State.memRead_respond (st data : Byte) (S : Space) (i : Nat) : (s.respond st data).memRead S i = s.memRead S i := by
  cases S <;> rfl
@[simp] theorem State.memRead_acceptCommand (w : CmdWord) (rest : List CmdWord) (S : Space) (i : Nat) : (s.acceptCommand w rest).memRead S i = s.memRead S i := by
  cases S <;> rfl
@[simp] theorem State.memRead_transferResponse (r : RspWord) (S : Space) (i : Nat) : (s.transferResponse r).memRead S i = s.memRead S i := by
  cases S <;> rfl

end Sys2Proof.Machine
end

