-- ==== Sys2Proof/Laws/Memory.lean ====
section
/-! SUPPORT. The laws of a byte memory: read after write, and that every operation keeps the canonical form. -/

namespace Sys2Proof.Machine

@[simp] theorem Memory.read?_nil (i : Nat) : Memory.read? [] i = none := rfl

/-- A read of the address written gives the byte written, on any list of cells. -/
@[simp] theorem Memory.read?_write_same (m : Memory) (i : Nat) (v : Byte) : (Memory.write m i v).read? i = some v := by
  induction m with
  | nil => simp [Memory.write, Memory.read?]
  | cons c m ih =>
    simp only [Memory.write]
    split
    · simp [Memory.read?]
    · split
      · simp [Memory.read?]
      · rename_i h
        simp [Memory.read?, Ne.symm h, ih]

/-- A read of another address gives what it gave before, on any list of cells. -/
theorem Memory.read?_write_ne (m : Memory) {i j : Nat} (v : Byte) (h : j ≠ i) :
    (Memory.write m i v).read? j = m.read? j := by
  induction m with
  | nil => simp [Memory.write, Memory.read?, Ne.symm h]
  | cons c m ih =>
    simp only [Memory.write]
    split
    · simp [Memory.read?, Ne.symm h]
    · split
      · rename_i hc
        simp [Memory.read?, ← hc, Ne.symm h]
      · simp [Memory.read?, ih]

/-- Both cases of a read after a write. -/
theorem Memory.read?_write (m : Memory) (i j : Nat) (v : Byte) :
    (Memory.write m i v).read? j = if j = i then some v else m.read? j := by
  split
  · rename_i h; subst h; simp
  · rename_i h; exact Memory.read?_write_ne m v h

/-- What a run of writes leaves: the bytes of the run at its addresses, and every other address as before. -/
theorem Memory.read?_writeRun (vs : List Byte) (m : Memory) (i j : Nat) :
    (Memory.writeRun m i vs).read? j = if i ≤ j ∧ j < i + vs.length then vs[j - i]? else m.read? j := by
  induction vs generalizing m i with
  | nil => simp [Memory.writeRun]
  | cons v vs ih =>
    simp only [Memory.writeRun, ih, List.length_cons]
    by_cases h : i + 1 ≤ j ∧ j < i + 1 + vs.length
    · have h' : i ≤ j ∧ j < i + (vs.length + 1) := by omega
      have hj : j - i = (j - (i + 1)) + 1 := by omega
      rw [if_pos h, if_pos h', hj, List.getElem?_cons_succ]
    · rw [if_neg h, Memory.read?_write]
      by_cases hji : j = i
      · subst hji; simp
      · rw [if_neg hji, if_neg (by omega)]

theorem Memory.wfFrom_mono {lo lo' : Nat} {m : Memory} (h : lo' ≤ lo) (hw : Memory.wfFrom lo m = true) :
    Memory.wfFrom lo' m = true := by
  cases m with
  | nil => rfl
  | cons c m =>
    simp only [Memory.wfFrom, Bool.and_eq_true, decide_eq_true_eq] at hw ⊢
    exact ⟨⟨by omega, hw.1.2⟩, hw.2⟩

theorem Memory.wfFrom_write {m : Memory} {lo i : Nat} (v : Byte) (hlo : lo ≤ i) (hi : i < Config.depth)
    (h : Memory.wfFrom lo m = true) : Memory.wfFrom lo (m.write i v) = true := by
  induction m generalizing lo with
  | nil => simp [Memory.write, Memory.wfFrom, hlo, hi]
  | cons c m ih =>
    simp only [Memory.wfFrom, Bool.and_eq_true, decide_eq_true_eq] at h
    obtain ⟨⟨h1, h2⟩, h3⟩ := h
    simp only [Memory.write]
    split
    · simp only [Memory.wfFrom, Bool.and_eq_true, decide_eq_true_eq]
      refine ⟨⟨hlo, hi⟩, ⟨by omega, h2⟩, h3⟩
    · split
      · rename_i hc
        subst hc
        simp [Memory.wfFrom, hlo, hi, h3]
      · simp only [Memory.wfFrom, Bool.and_eq_true, decide_eq_true_eq]
        exact ⟨⟨h1, h2⟩, ih (by omega) h3⟩

/-- A write inside the memory's depth keeps the canonical form. -/
theorem Memory.wf_write {m : Memory} {i : Nat} (v : Byte) (hi : i < Config.depth) (h : m.wf = true) :
    (m.write i v).wf = true :=
  Memory.wfFrom_write v (Nat.zero_le i) hi h

/-- A run of writes inside the memory's depth keeps the canonical form. -/
theorem Memory.wf_writeRun {vs : List Byte} {m : Memory} {i : Nat} (hi : i + vs.length ≤ Config.depth)
    (h : m.wf = true) : (m.writeRun i vs).wf = true := by
  induction vs generalizing m i with
  | nil => exact h
  | cons v vs ih =>
    simp only [List.length_cons] at hi
    exact ih (by omega) (Memory.wf_write v (by omega) h)

/-- The memories of the reset state are in canonical form. -/
theorem Memory.wf_nil : Memory.wf [] = true := rfl

end Sys2Proof.Machine
end

