-- ==== Sys2Proof/Laws/Ops.lean ====
section
/-! SUPPORT. What the shared operations can do: one lemma for each, to be cited instead of unfolding it. -/

namespace Sys2Proof.Machine

/-! ### Reads and writes of the spaces (20_memory.md R40) -/

/-- A read depends on the memories, the tables and the draw in force only. -/
theorem State.memRead_congr {s t : State} (h1 : t.coef = s.coef) (h2 : t.xs = s.xs) (h3 : t.ys = s.ys)
    (h4 : t.mult = s.mult) (h5 : t.invt = s.invt) (h6 : t.epoch = s.epoch) (S : Space) (i : Nat) :
    t.memRead S i = s.memRead S i := by
  simp only [State.memRead, h6]
  cases S <;> simp [State.stored?, h1, h2, h3, h4, h5]

theorem State.memRead_writeCoef (s : State) (i : Nat) (v : Byte) (S : Space) (j : Nat) :
    (s.writeCoef i v).memRead S j = if S = .coef ∧ j = i then v else s.memRead S j := by
  cases S <;> simp [State.memRead, State.stored?, Memory.read?_write]
  split <;> simp

theorem State.memRead_writeXs (s : State) (i : Nat) (v : Byte) (S : Space) (j : Nat) :
    (s.writeXs i v).memRead S j = if S = .xs ∧ j = i then v else s.memRead S j := by
  cases S <;> simp [State.memRead, State.stored?, Memory.read?_write]
  split <;> simp

theorem State.memRead_writeYs (s : State) (i : Nat) (v : Byte) (S : Space) (j : Nat) :
    (s.writeYs i v).memRead S j = if S = .ys ∧ j = i then v else s.memRead S j := by
  cases S <;> simp [State.memRead, State.stored?, Memory.read?_write]
  split <;> simp

theorem State.memRead_writeYsRun (s : State) (vs : List Byte) (S : Space) (j : Nat) :
    (s.writeYsRun vs).memRead S j = if S = .ys then (vs[j]?).getD (s.memRead S j) else s.memRead S j := by
  cases S <;> simp [State.memRead, State.stored?, Memory.read?_writeRun]
  by_cases h : j < vs.length <;> simp [h]

/-! ### The tables (40_field.md R87) -/

theorem builtRow_getElem? (a b : Byte) : (builtRow a)[b.toNat]? = some (gfMulb a b) := by
  have hb : b.toNat < Config.depth := b.isLt
  simp [builtRow, List.getElem?_map, List.getElem?_range hb]

theorem builtMult_getElem? (a : Byte) : builtMult[a.toNat]? = some (builtRow a) := by
  have ha : a.toNat < Config.depth := a.isLt
  simp [builtMult, List.getElem?_map, List.getElem?_range ha]

theorem builtInvt_getElem? (a : Byte) : builtInvt[a.toNat]? = some (gfPow254 a) := by
  have ha : a.toNat < Config.depth := a.isLt
  simp [builtInvt, List.getElem?_map, List.getElem?_range ha]

theorem multIndex_div (a b : Byte) : (256 * a.toNat + b.toNat) / Config.depth = a.toNat := by
  have hb : b.toNat < 256 := b.isLt
  simp only [Config.depth]; omega

theorem multIndex_mod (a b : Byte) : (256 * a.toNat + b.toNat) % Config.depth = b.toNat := by
  have hb : b.toNat < 256 := b.isLt
  simp only [Config.depth]; omega

/-- A state that holds the builder's tables has them built. -/
theorem State.tablesBuilt_of_built {s : State} (hm : s.mult = builtMult) (hi : s.invt = builtInvt) :
    s.TablesBuilt := by
  constructor
  · intro a b
    simp [State.memRead, State.stored?, hm, multIndex_div, multIndex_mod, builtMult_getElem?, builtRow_getElem?]
  · intro a
    simp [State.memRead, State.stored?, hi, builtInvt_getElem?]

/-- Whether the tables are built depends on the tables and the draw in force only. -/
theorem State.TablesBuilt.congr {s t : State} (h : s.TablesBuilt) (hm : t.mult = s.mult) (hi : t.invt = s.invt)
    (he : t.epoch = s.epoch) : t.TablesBuilt := by
  constructor
  · intro a b
    rw [← h.1 a b]; simp [State.memRead, State.stored?, hm, he]
  · intro a
    rw [← h.2 a]; simp [State.memRead, State.stored?, hi, he]

/-- The table path of multiplication on built tables (R84). -/
theorem State.TablesBuilt.gfMul_eq {s : State} (h : s.TablesBuilt) (a b : Byte) : s.gfMul a b = gfMulb a b := h.1 a b

/-- The table path of the inverse on built tables (R85). -/
theorem State.TablesBuilt.gfInv_eq {s : State} (h : s.TablesBuilt) (a : Byte) :
    s.gfInv a = if a = 0x00#8 then none else some (gfPow254 a) := by
  simp only [State.gfInv, effIndex, h.2 a]

/-! ### STATUS (10_state.md R29) -/

@[simp] theorem State.ready_setReady (s : State) : s.setReady.ready = true := by simp [State.ready, readyBit]
@[simp] theorem State.domerr_setReady (s : State) : s.setReady.domerr = s.domerr := by simp [State.domerr, readyBit]
@[simp] theorem State.illerr_setReady (s : State) : s.setReady.illerr = s.illerr := by simp [State.illerr, readyBit]
@[simp] theorem State.ready_setDomerr (s : State) : s.setDomerr.ready = s.ready := by simp [State.ready, domerrBit]
@[simp] theorem State.domerr_setDomerr (s : State) : s.setDomerr.domerr = true := by simp [State.domerr, domerrBit]
@[simp] theorem State.illerr_setDomerr (s : State) : s.setDomerr.illerr = s.illerr := by simp [State.illerr, domerrBit]
@[simp] theorem State.ready_setIllerr (s : State) : s.setIllerr.ready = s.ready := by simp [State.ready, illerrBit]
@[simp] theorem State.domerr_setIllerr (s : State) : s.setIllerr.domerr = s.domerr := by simp [State.domerr, illerrBit]
@[simp] theorem State.illerr_setIllerr (s : State) : s.setIllerr.illerr = true := by simp [State.illerr, illerrBit]

@[simp] theorem State.ready_respond (s : State) (st data : Byte) : (s.respond st data).ready = s.ready := rfl
@[simp] theorem State.domerr_respond (s : State) (st data : Byte) : (s.respond st data).domerr = s.domerr := rfl
@[simp] theorem State.illerr_respond (s : State) (st data : Byte) : (s.respond st data).illerr = s.illerr := rfl
@[simp] theorem State.ready_setDeg (s : State) (d : Byte) : (s.setDeg d).ready = s.ready := rfl
@[simp] theorem State.domerr_setDeg (s : State) (d : Byte) : (s.setDeg d).domerr = s.domerr := rfl
@[simp] theorem State.illerr_setDeg (s : State) (d : Byte) : (s.setDeg d).illerr = s.illerr := rfl
@[simp] theorem State.ready_setNs (s : State) (n : Byte) : (s.setNs n).ready = s.ready := rfl
@[simp] theorem State.domerr_setNs (s : State) (n : Byte) : (s.setNs n).domerr = s.domerr := rfl
@[simp] theorem State.illerr_setNs (s : State) (n : Byte) : (s.setNs n).illerr = s.illerr := rfl
@[simp] theorem State.ready_writeCoef (s : State) (i : Nat) (v : Byte) : (s.writeCoef i v).ready = s.ready := rfl
@[simp] theorem State.domerr_writeCoef (s : State) (i : Nat) (v : Byte) : (s.writeCoef i v).domerr = s.domerr := rfl
@[simp] theorem State.illerr_writeCoef (s : State) (i : Nat) (v : Byte) : (s.writeCoef i v).illerr = s.illerr := rfl
@[simp] theorem State.ready_writeXs (s : State) (k : Nat) (v : Byte) : (s.writeXs k v).ready = s.ready := rfl
@[simp] theorem State.domerr_writeXs (s : State) (k : Nat) (v : Byte) : (s.writeXs k v).domerr = s.domerr := rfl
@[simp] theorem State.illerr_writeXs (s : State) (k : Nat) (v : Byte) : (s.writeXs k v).illerr = s.illerr := rfl
@[simp] theorem State.ready_writeYs (s : State) (k : Nat) (v : Byte) : (s.writeYs k v).ready = s.ready := rfl
@[simp] theorem State.domerr_writeYs (s : State) (k : Nat) (v : Byte) : (s.writeYs k v).domerr = s.domerr := rfl
@[simp] theorem State.illerr_writeYs (s : State) (k : Nat) (v : Byte) : (s.writeYs k v).illerr = s.illerr := rfl
@[simp] theorem State.ready_writeYsRun (s : State) (vs : List Byte) : (s.writeYsRun vs).ready = s.ready := rfl
@[simp] theorem State.domerr_writeYsRun (s : State) (vs : List Byte) : (s.writeYsRun vs).domerr = s.domerr := rfl
@[simp] theorem State.illerr_writeYsRun (s : State) (vs : List Byte) : (s.writeYsRun vs).illerr = s.illerr := rfl
@[simp] theorem State.ready_acceptCommand (s : State) (w : CmdWord) (rest : List CmdWord) : (s.acceptCommand w rest).ready = s.ready := rfl
@[simp] theorem State.domerr_acceptCommand (s : State) (w : CmdWord) (rest : List CmdWord) : (s.acceptCommand w rest).domerr = s.domerr := rfl
@[simp] theorem State.illerr_acceptCommand (s : State) (w : CmdWord) (rest : List CmdWord) : (s.acceptCommand w rest).illerr = s.illerr := rfl
@[simp] theorem State.ready_transferResponse (s : State) (r : RspWord) : (s.transferResponse r).ready = s.ready := rfl
@[simp] theorem State.domerr_transferResponse (s : State) (r : RspWord) : (s.transferResponse r).domerr = s.domerr := rfl
@[simp] theorem State.illerr_transferResponse (s : State) (r : RspWord) : (s.transferResponse r).illerr = s.illerr := rfl
@[simp] theorem State.ready_buildTables (s : State) : s.buildTables.ready = true := by simp [State.ready, readyBit]
@[simp] theorem State.domerr_buildTables (s : State) : s.buildTables.domerr = s.domerr := by simp [State.domerr, readyBit]
@[simp] theorem State.illerr_buildTables (s : State) : s.buildTables.illerr = s.illerr := by simp [State.illerr, readyBit]
@[simp] theorem State.ready_takeReset (s : State) : s.takeReset.ready = false := by simp [State.ready]
@[simp] theorem State.domerr_takeReset (s : State) : s.takeReset.domerr = false := by simp [State.domerr]
@[simp] theorem State.illerr_takeReset (s : State) : s.takeReset.illerr = false := by simp [State.illerr]

/-- The flags depend on STATUS only. -/
theorem State.ready_congr {s t : State} (h : t.status = s.status) : t.ready = s.ready := by simp [State.ready, h]

theorem State.domerr_congr {s t : State} (h : t.status = s.status) : t.domerr = s.domerr := by simp [State.domerr, h]

theorem State.illerr_congr {s t : State} (h : t.status = s.status) : t.illerr = s.illerr := by simp [State.illerr, h]

/-! ### Responses (30_encoding.md R63) -/

theorem rspWord_status (st data : Byte) : (rspWord st data).extractLsb' 8 8 = st := by
  ext i hi
  simp only [rspWord, BitVec.getElem_extractLsb', BitVec.getLsbD_append]
  rw [if_neg (by omega), BitVec.getLsbD_eq_getElem (by omega)]
  congr 1
  omega

theorem rspWord_data (st data : Byte) : (rspWord st data).extractLsb' 0 8 = data := by
  ext i hi
  simp only [rspWord, BitVec.getElem_extractLsb', BitVec.getLsbD_append]
  rw [if_pos (by omega), BitVec.getLsbD_eq_getElem (by omega)]
  congr 1
  omega

/-- A serialised response is its status, then its data (20_memory.md R42). -/
@[simp] theorem rspBytes_rspWord (st data : Byte) : rspBytes (rspWord st data) = [st, data] := by
  simp [rspBytes, rspWord_status, rspWord_data]

/-- Every outcome of a field function is OK with its byte, or DomainError. -/
theorem State.respondResult_cases (s : State) (r : Option Byte) :
    (∃ v, r = some v ∧ s.respondResult r = s.respond stOk v) ∨ (r = none ∧ s.respondResult r = s.raiseDomain) := by
  cases r with
  | none => exact .inr ⟨rfl, rfl⟩
  | some v => exact .inl ⟨v, rfl, rfl⟩

/-! ### Whose turn it is (00_scope.md R9) -/

theorem State.phase_of_rst {s : State} (h : s.rst = true) : s.phase = .reset := by simp [State.phase, h]

theorem State.phase_of_notReady {s : State} (h1 : s.rst = false) (h2 : s.ready = false) : s.phase = .build := by
  simp [State.phase, h1, h2]

theorem State.phase_of_rsp {s : State} {r : RspWord} (h1 : s.rst = false) (h2 : s.ready = true) (h3 : s.rsp = some r) :
    s.phase = if s.rspReady then .transfer r else .waitHost := by
  simp [State.phase, h1, h2, h3]

theorem State.phase_of_cmd {s : State} {w : CmdWord} (h1 : s.rst = false) (h2 : s.ready = true) (h3 : s.rsp = none)
    (h4 : s.cmd = some w) : s.phase = .execute w := by
  simp [State.phase, h1, h2, h3, h4]

theorem State.phase_of_cmdIn {s : State} {w : CmdWord} {rest : List CmdWord} (h1 : s.rst = false) (h2 : s.ready = true)
    (h3 : s.rsp = none) (h4 : s.cmd = none) (h5 : s.cmdIn = w :: rest) : s.phase = .accept w rest := by
  simp [State.phase, h1, h2, h3, h4, h5]

theorem State.phase_of_quiet {s : State} (h1 : s.rst = false) (h2 : s.ready = true) (h3 : s.rsp = none)
    (h4 : s.cmd = none) (h5 : s.cmdIn = []) : s.phase = .idle := by
  simp [State.phase, h1, h2, h3, h4, h5]

/-- Everything a turn can be, with what it says of the state. -/
theorem State.phase_cases (s : State) :
    (s.rst = true ∧ s.phase = .reset) ∨
    (s.rst = false ∧ s.ready = false ∧ s.phase = .build) ∨
    (s.rst = false ∧ s.ready = true ∧ ∃ r, s.rsp = some r ∧ s.rspReady = true ∧ s.phase = .transfer r) ∨
    (s.rst = false ∧ s.ready = true ∧ (∃ r, s.rsp = some r) ∧ s.rspReady = false ∧ s.phase = .waitHost) ∨
    (s.rst = false ∧ s.ready = true ∧ s.rsp = none ∧ ∃ w, s.cmd = some w ∧ s.phase = .execute w) ∨
    (s.rst = false ∧ s.ready = true ∧ s.rsp = none ∧ s.cmd = none ∧
      ∃ w rest, s.cmdIn = w :: rest ∧ s.phase = .accept w rest) ∨
    (s.rst = false ∧ s.ready = true ∧ s.rsp = none ∧ s.cmd = none ∧ s.cmdIn = [] ∧ s.phase = .idle) := by
  cases h1 : s.rst with
  | true => simp [State.phase, h1]
  | false =>
    cases h2 : s.ready with
    | false => simp [State.phase, h1, h2]
    | true =>
      cases h3 : s.rsp with
      | some r => cases h4 : s.rspReady <;> simp [State.phase, h1, h2, h3, h4]
      | none =>
        cases h4 : s.cmd with
        | some w => simp [State.phase, h1, h2, h3, h4]
        | none => cases h5 : s.cmdIn <;> simp [State.phase, h1, h2, h3, h4, h5]

end Sys2Proof.Machine
end

