-- ==== Sys2Proof/Laws/PerInstr.lean ====
section
/-! SUPPORT. Statements made per command: the fields a command's format does not use are zero (30_encoding.md R61). -/

namespace Sys2Proof.Laws.ReservedFieldsZero

/-- The word of the command has zero in every field its format reserves. -/
def Statement (i : Instr) : Prop := i.wellFormed = true

theorem add (a b : Byte) : Statement (.add a b) := rfl
theorem sub (a b : Byte) : Statement (.sub a b) := rfl
theorem mul (a b : Byte) : Statement (.mul a b) := rfl
theorem inv (a : Byte) : Statement (.inv a) := rfl
theorem div (a b : Byte) : Statement (.div a b) := rfl
theorem mulb (a b : Byte) : Statement (.mulb a b) := rfl
theorem invb (a : Byte) : Statement (.invb a) := rfl
theorem setdeg (d : Byte) : Statement (.setdeg d) := rfl
theorem ldc (i v : Byte) : Statement (.ldc i v) := rfl
theorem rdc (i : Byte) : Statement (.rdc i) := rfl
theorem setns (n : Byte) : Statement (.setns n) := rfl
theorem ldx (k v : Byte) : Statement (.ldx k v) := rfl
theorem ldy (k v : Byte) : Statement (.ldy k v) := rfl
theorem rdx (k : Byte) : Statement (.rdx k) := rfl
theorem rdy (k : Byte) : Statement (.rdy k) := rfl
theorem rddeg : Statement .rddeg := rfl
theorem rdns : Statement .rdns := rfl
theorem eval (x : Byte) : Statement (.eval x) := rfl
theorem meval : Statement .meval := rfl
theorem interp (x : Byte) : Statement (.interp x) := rfl
theorem rdst : Statement .rdst := rfl

end Sys2Proof.Laws.ReservedFieldsZero
end

