-- ==== Sys2Proof/Laws/Step.lean ====
section
/-! SUPPORT. What a command and a step can do, said once (00_scope.md R8, R9). -/

namespace Sys2Proof.Machine

/-- `u` is `s`, or `s` after the one write a command makes (10_state.md R20). -/
def State.OneWrite (s u : State) : Prop :=
  u = s ∨ (∃ d, u = s.setDeg d) ∨ (∃ n, u = s.setNs n) ∨ (∃ k v : Byte, u = s.writeCoef k.toNat v) ∨
  (∃ k v : Byte, u = s.writeXs k.toNat v) ∨ (∃ k v : Byte, u = s.writeYs k.toNat v) ∨ u = s.writeYsRun s.liveValues

/-- What one write leaves alone: the tables, STATUS, the latches, the wires and the model's own fields. -/
theorem State.OneWrite.frame {s u : State} (h : s.OneWrite u) :
    u.mult = s.mult ∧ u.invt = s.invt ∧ u.status = s.status ∧ u.cmd = s.cmd ∧ u.rsp = s.rsp ∧ u.rst = s.rst ∧
    u.rspReady = s.rspReady ∧ u.cmdIn = s.cmdIn ∧ u.rspOut = s.rspOut ∧ u.epoch = s.epoch := by
  rcases h with rfl | ⟨d, rfl⟩ | ⟨n, rfl⟩ | ⟨k, v, rfl⟩ | ⟨k, v, rfl⟩ | ⟨k, v, rfl⟩ | rfl <;> simp

/-- One write keeps the three memories in canonical form. -/
theorem State.OneWrite.wf {s u : State} (h : s.OneWrite u) (hc : s.coef.wf = true) (hx : s.xs.wf = true)
    (hy : s.ys.wf = true) : u.coef.wf = true ∧ u.xs.wf = true ∧ u.ys.wf = true := by
  have hrun : (s.ys.writeRun 0 s.liveValues).wf = true := by
    refine Memory.wf_writeRun ?_ hy
    have := s.ns.isLt
    simp only [State.liveValues, State.liveCount, List.length_map, List.length_range, Config.depth]
    omega
  rcases h with rfl | ⟨d, rfl⟩ | ⟨n, rfl⟩ | ⟨k, v, rfl⟩ | ⟨k, v, rfl⟩ | ⟨k, v, rfl⟩ | rfl
  · exact ⟨hc, hx, hy⟩
  · exact ⟨hc, hx, hy⟩
  · exact ⟨hc, hx, hy⟩
  · exact ⟨Memory.wf_write v k.isLt hc, hx, hy⟩
  · exact ⟨hc, Memory.wf_write v k.isLt hx, hy⟩
  · exact ⟨hc, hx, Memory.wf_write v k.isLt hy⟩
  · exact ⟨hc, hx, hrun⟩

/-- A command that responds with the outcome of a field function. -/
theorem exec_of_result {s : State} {i : Instr} {r : Option Byte} (h : exec i s = .next (s.respondResult r)) :
    (∃ u d, s.OneWrite u ∧ exec i s = .next (u.respond stOk d)) ∨ exec i s = .next s.raiseDomain := by
  rcases s.respondResult_cases r with ⟨v, -, hv⟩ | ⟨-, hv⟩
  · exact .inl ⟨s, v, .inl rfl, by rw [h, hv]⟩
  · exact .inr (by rw [h, hv])

/-- Everything a command can do: at most one write and an OK response, or DomainError. -/
theorem exec_cases (i : Instr) (s : State) :
    (∃ u d, s.OneWrite u ∧ exec i s = .next (u.respond stOk d)) ∨ exec i s = .next s.raiseDomain := by
  cases i with
  | add a b => exact .inl ⟨s, _, .inl rfl, rfl⟩
  | sub a b => exact .inl ⟨s, _, .inl rfl, rfl⟩
  | mul a b => exact .inl ⟨s, _, .inl rfl, rfl⟩
  | inv a => exact exec_of_result rfl
  | div a b => exact exec_of_result rfl
  | mulb a b => exact .inl ⟨s, _, .inl rfl, rfl⟩
  | invb a => exact exec_of_result rfl
  | setdeg d => exact .inl ⟨_, _, .inr (.inl ⟨d, rfl⟩), rfl⟩
  | ldc k v => exact .inl ⟨_, _, .inr (.inr (.inr (.inl ⟨k, v, rfl⟩))), rfl⟩
  | rdc k => exact .inl ⟨s, _, .inl rfl, rfl⟩
  | setns n => exact .inl ⟨_, _, .inr (.inr (.inl ⟨n, rfl⟩)), rfl⟩
  | ldx k v => exact .inl ⟨_, _, .inr (.inr (.inr (.inr (.inl ⟨k, v, rfl⟩)))), rfl⟩
  | ldy k v => exact .inl ⟨_, _, .inr (.inr (.inr (.inr (.inr (.inl ⟨k, v, rfl⟩))))), rfl⟩
  | rdx k => exact .inl ⟨s, _, .inl rfl, rfl⟩
  | rdy k => exact .inl ⟨s, _, .inl rfl, rfl⟩
  | rddeg => exact .inl ⟨s, _, .inl rfl, rfl⟩
  | rdns => exact .inl ⟨s, _, .inl rfl, rfl⟩
  | eval x => exact .inl ⟨s, _, .inl rfl, rfl⟩
  | meval => exact .inl ⟨_, _, .inr (.inr (.inr (.inr (.inr (.inr rfl))))), rfl⟩
  | interp x => exact exec_of_result rfl
  | rdst => exact .inl ⟨s, _, .inl rfl, rfl⟩

/-- Everything a step can do, with what it says of the state. -/
theorem step_cases (s : State) :
    (s.rst = true ∧ step s = .next s.takeReset) ∨
    (s.rst = false ∧ s.ready = false ∧ step s = .next s.buildTables) ∨
    (s.rst = false ∧ s.ready = true ∧ ∃ r, s.rsp = some r ∧ s.rspReady = true ∧
      step s = .next (s.transferResponse r)) ∨
    (s.rst = false ∧ s.ready = true ∧ (∃ r, s.rsp = some r) ∧ s.rspReady = false ∧ step s = .next s) ∨
    (s.rst = false ∧ s.ready = true ∧ s.rsp = none ∧ ∃ w, s.cmd = some w ∧
      ((∃ i, decode w = .ok i ∧ step s = exec i s) ∨ ∃ e, decode w = .error e ∧ step s = .next s.raiseIllegal)) ∨
    (s.rst = false ∧ s.ready = true ∧ s.rsp = none ∧ s.cmd = none ∧
      ∃ w rest, s.cmdIn = w :: rest ∧ step s = .next (s.acceptCommand w rest)) ∨
    (s.rst = false ∧ s.ready = true ∧ s.rsp = none ∧ s.cmd = none ∧ s.cmdIn = [] ∧ step s = .next s) := by
  rcases s.phase_cases with ⟨h, hp⟩ | ⟨h1, h2, hp⟩ | ⟨h1, h2, r, h3, h4, hp⟩ | ⟨h1, h2, ⟨r, h3⟩, h4, hp⟩ |
    ⟨h1, h2, h3, w, h4, hp⟩ | ⟨h1, h2, h3, h4, w, rest, h5, hp⟩ | ⟨h1, h2, h3, h4, h5, hp⟩
  · simp [step, hp, h]
  · simp [step, hp, h1, h2]
  · simp [step, hp, h1, h2, h3, h4]
  · simp [step, hp, h1, h2, h3, h4]
  · simp only [step, hp, h1, h2, h3, h4]
    cases hd : decode w <;> simp [hd]
  · simp [step, hp, h1, h2, h3, h4, h5]
  · simp [step, hp, h1, h2, h3, h4, h5]

end Sys2Proof.Machine
end

