-- ==== Sys2Proof/Tests/Slice0.lean ====
section
/-! SUPPORT. The model's own tests. Expected values come from spec/95_test_vectors.md (the vector is named at each test) or
from the encodings of 30_encoding.md; then one witness for the hypotheses of each statement. -/

namespace Sys2Proof.Tests

open Sys2Proof Sys2Proof.Machine

/-! ### Well-formedness (30_encoding.md R61): an ill-formed term for each check -/

theorem test_wf_ab_ok : Fields.wellFormed .ab ⟨0x03#8, 0xFF#8, 0xFF#8, 0x00#8⟩ = true := by decide
theorem test_wf_refuses_z : Fields.wellFormed .ab ⟨0x03#8, 0x57#8, 0x83#8, 0x01#8⟩ = false := by decide
theorem test_wf_refuses_z_in_a : Fields.wellFormed .a ⟨0x04#8, 0x53#8, 0x00#8, 0x80#8⟩ = false := by decide
theorem test_wf_refuses_b_in_a : Fields.wellFormed .a ⟨0x04#8, 0x53#8, 0x01#8, 0x00#8⟩ = false := by decide
theorem test_wf_refuses_z_in_n : Fields.wellFormed .n ⟨0x30#8, 0x00#8, 0x00#8, 0x01#8⟩ = false := by decide
theorem test_wf_refuses_b_in_n : Fields.wellFormed .n ⟨0x21#8, 0x00#8, 0x01#8, 0x00#8⟩ = false := by decide
theorem test_wf_refuses_a_in_n : Fields.wellFormed .n ⟨0x21#8, 0x01#8, 0x00#8, 0x00#8⟩ = false := by decide

/-! ### Decoding: every command's word written out field by field from R60 and R65 -/

theorem test_decode_add : decode 0b00000001_01010111_10000011_00000000#32 = .ok (.add 0x57#8 0x83#8) := by decide
theorem test_decode_sub : decode 0b00000010_01010111_10000011_00000000#32 = .ok (.sub 0x57#8 0x83#8) := by decide
theorem test_decode_mul : decode 0b00000011_01010111_10000011_00000000#32 = .ok (.mul 0x57#8 0x83#8) := by decide
theorem test_decode_inv : decode 0b00000100_01010011_00000000_00000000#32 = .ok (.inv 0x53#8) := by decide
theorem test_decode_div : decode 0b00000101_11000001_10000011_00000000#32 = .ok (.div 0xC1#8 0x83#8) := by decide
theorem test_decode_mulb : decode 0b00000110_01010111_10000011_00000000#32 = .ok (.mulb 0x57#8 0x83#8) := by decide
theorem test_decode_invb : decode 0b00000111_01010011_00000000_00000000#32 = .ok (.invb 0x53#8) := by decide
theorem test_decode_setdeg : decode 0b00010000_00000010_00000000_00000000#32 = .ok (.setdeg 0x02#8) := by decide
theorem test_decode_ldc : decode 0b00010001_00000000_01101000_00000000#32 = .ok (.ldc 0x00#8 0x68#8) := by decide
theorem test_decode_rdc : decode 0b00010010_11111111_00000000_00000000#32 = .ok (.rdc 0xFF#8) := by decide
theorem test_decode_setns : decode 0b00010011_00000101_00000000_00000000#32 = .ok (.setns 0x05#8) := by decide
theorem test_decode_ldx : decode 0b00010100_00000001_00000010_00000000#32 = .ok (.ldx 0x01#8 0x02#8) := by decide
theorem test_decode_ldy : decode 0b00010101_00000000_11001101_00000000#32 = .ok (.ldy 0x00#8 0xCD#8) := by decide
theorem test_decode_rdx : decode 0b00010110_00000001_00000000_00000000#32 = .ok (.rdx 0x01#8) := by decide
theorem test_decode_rdy : decode 0b00010111_00000100_00000000_00000000#32 = .ok (.rdy 0x04#8) := by decide
theorem test_decode_rddeg : decode 0b00011000_00000000_00000000_00000000#32 = .ok .rddeg := by decide
theorem test_decode_rdns : decode 0b00011001_00000000_00000000_00000000#32 = .ok .rdns := by decide
theorem test_decode_eval : decode 0b00100000_00000011_00000000_00000000#32 = .ok (.eval 0x03#8) := by decide
theorem test_decode_meval : decode 0b00100001_00000000_00000000_00000000#32 = .ok .meval := by decide
theorem test_decode_interp : decode 0b00100010_11111110_00000000_00000000#32 = .ok (.interp 0xFE#8) := by decide
theorem test_decode_rdst : decode 0b00110000_00000000_00000000_00000000#32 = .ok .rdst := by decide

/-- X2, X4 to X9: opcodes that R65 does not list. -/
theorem test_decode_unknown : decode 0x00000000#32 = .error .unknownOpcode ∧ decode 0xFFFFFFFF#32 = .error .unknownOpcode ∧
    decode 0x08000000#32 = .error .unknownOpcode ∧ decode 0x0F000000#32 = .error .unknownOpcode ∧
    decode 0x1A000000#32 = .error .unknownOpcode ∧ decode 0x23000000#32 = .error .unknownOpcode ∧
    decode 0x31000000#32 = .error .unknownOpcode := by decide

/-- X11 to X20: reserved fields that are not zero. -/
theorem test_decode_reserved : decode 0x035783FF#32 = .error .reservedZ ∧ decode 0x07530001#32 = .error .reservedZ ∧
    decode 0x22000100#32 = .error .reservedB ∧ decode 0x21000100#32 = .error .reservedB ∧
    decode 0x19FF0000#32 = .error .reservedA ∧ decode 0x18010000#32 = .error .reservedA := by decide

/-- R71's examples of assembled words. -/
theorem test_encode : encode (.mul 0x57#8 0x83#8) = 0x03578300#32 ∧ encode (.inv 0x53#8) = 0x04530000#32 ∧
    encode .meval = 0x21000000#32 := by decide

/-- R42: 0x03578300 is the bytes 03 57 83 00; three bytes are no word. -/
theorem test_decode_bytes : decodeBytes [0x03#8, 0x57#8, 0x83#8, 0x00#8, 0xAA#8] = .ok (.mul 0x57#8 0x83#8, [0xAA#8]) ∧
    decodeBytes [0x03#8, 0x57#8, 0x83#8] = .error .short := by decide

/-- R42, D24: the illegal word 0x03578301 and the responses of F7 and F30 as bytes. -/
theorem test_word_bytes : cmdBytes 0x03578301#32 = [0x03#8, 0x57#8, 0x83#8, 0x01#8] ∧
    rspBytes 0x00C1#16 = [0x00#8, 0xC1#8] ∧ rspBytes 0x0200#16 = [0x02#8, 0x00#8] ∧
    rspOfBytes [0x02#8, 0x00#8, 0xAA#8] = some (0x0200#16, [0xAA#8]) ∧ rspOfBytes [0x02#8] = none := by decide

/-- The table's numbering is the word's own. -/
theorem test_decode_table_word : decodeTableWord 32 0x05C18300 = some (.div 0xC1#8 0x83#8) ∧
    decodeTableWord 32 0x05C18301 = none := by decide

/-! ### Assembler (30_encoding.md R71 to R73) -/

/-- R71's example with a decimal operand and a comment. -/
theorem test_assemble :
    assembleText ['M', 'U', 'L', ' ', '8', '7', ',', '0', 'x', '8', '3', ' ', ';', 'c'] = some [0x03578300#32] := by decide
/-- R72: `LDPOLY 0x42` is `SETDEG 0 ; LDC 0, 0x42`. -/
theorem test_assemble_ldpoly : assembleText ['L', 'D', 'P', 'O', 'L', 'Y', ' ', '0', 'x', '4', '2'] =
    some [0x10000000#32, 0x11004200#32] := by decide
/-- R73: the disassembly of an illegal word. -/
theorem test_disassemble_illegal : disassemble 0x03578301#32 =
    ['.', 'w', 'o', 'r', 'd', ' ', '0', 'x', '0', '3', '5', '7', '8', '3', '0', '1'] := by decide

/-! ### The commands -/

/-- The unit after reset, once READY (95_test_vectors.md section 3). -/
def readyState : State := State.reset.buildTables

/-- The unit of P2 and P3: the polynomial 0x68 + 0xA7 x + 0x3C x^2 and three of its samples. -/
def shareState : State :=
  { readyState with deg := 2#8, coef := [(0, 0x68#8), (1, 0xA7#8), (2, 0x3C#8)], ns := 3#8,
                    xs := [(0, 0x02#8), (1, 0x04#8), (2, 0x05#8)], ys := [(0, 0xCD#8), (1, 0x2F#8), (2, 0xB4#8)] }

/-- The unit of I20: a repeated x value. -/
def repeatState : State :=
  { readyState with ns := 3#8, xs := [(0, 0x01#8), (1, 0x01#8), (2, 0x02#8)], ys := [(0, 0x05#8), (1, 0x06#8), (2, 0x07#8)] }

/-- The ready unit with a word in flight. -/
def inFlight (w : CmdWord) : State := { readyState with cmd := some w }

/-- The response a command leaves. -/
def rspOf (i : Instr) (s : State) : Option RspWord :=
  match exec i s with
  | .next t => t.rsp
  | .fault _ => none
  | .refused _ => none

/-- What an entry of a space reads as after a command. -/
def readOf (i : Instr) (s : State) (S : Space) (k : Nat) : Option Byte :=
  match exec i s with
  | .next t => some (t.memRead S k)
  | .fault _ => none
  | .refused _ => none

/-- STATUS after a command. -/
def statusOf (i : Instr) (s : State) : Option Byte :=
  match exec i s with
  | .next t => some t.statusByte
  | .fault _ => none
  | .refused _ => none

/-- F1. -/
theorem test_add : rspOf (.add 0x57#8 0x83#8) readyState = some 0x00D4#16 := by decide
/-- F5. -/
theorem test_sub : rspOf (.sub 0x57#8 0x83#8) readyState = some 0x00D4#16 := by decide
/-- F7. -/
theorem test_mul : rspOf (.mul 0x57#8 0x83#8) readyState = some 0x00C1#16 := by decide
/-- F10, the reduction. -/
theorem test_mul_reduces : rspOf (.mul 0x02#8 0x80#8) readyState = some 0x001B#16 := by decide
/-- F26. -/
theorem test_inv : rspOf (.inv 0x53#8) readyState = some 0x00CA#16 := by decide
/-- F30. -/
theorem test_inv_zero : rspOf (.inv 0x00#8) readyState = some 0x0200#16 ∧ statusOf (.inv 0x00#8) readyState = some 0x03#8 := by
  decide
/-- F42. -/
theorem test_div : rspOf (.div 0xFF#8 0x1C#8) readyState = some 0x0013#16 := by decide
/-- F24 and F37: the divisor is checked first; a zero dividend gives exactly 0. -/
theorem test_div_zero : rspOf (.div 0x00#8 0x00#8) readyState = some 0x0200#16 ∧
    rspOf (.div 0x00#8 0x83#8) readyState = some 0x0000#16 := by decide
/-- F20. -/
theorem test_mulb : rspOf (.mulb 0xFF#8 0xFF#8) readyState = some 0x0013#16 := by decide
/-- F32. -/
theorem test_invb : rspOf (.invb 0xFF#8) readyState = some 0x001C#16 := by decide
/-- F34. -/
theorem test_invb_zero : rspOf (.invb 0x00#8) readyState = some 0x0200#16 := by decide
/-- M3, M4. -/
theorem test_setdeg : ∃ t, exec (.setdeg 0xFF#8) readyState = .next t ∧ t.rsp = some 0x0000#16 ∧ t.deg = 0xFF#8 :=
  ⟨_, rfl, rfl, rfl⟩
/-- M9, M10: the highest index, above `DEG`. -/
theorem test_ldc : readOf (.ldc 0xFF#8 0xAA#8) shareState .coef 255 = some 0xAA#8 ∧
    readOf (.ldc 0xFF#8 0xAA#8) shareState .coef 2 = some 0x3C#8 := by decide
/-- P2.2, M8. -/
theorem test_rdc : rspOf (.rdc 0x00#8) shareState = some 0x0068#16 := by decide
/-- M13, M14. -/
theorem test_setns : ∃ t, exec (.setns 0xFF#8) readyState = .next t ∧ t.rsp = some 0x0000#16 ∧ t.ns = 0xFF#8 :=
  ⟨_, rfl, rfl, rfl⟩
/-- M17, M20, M21: the memories are separate. -/
theorem test_ldx : readOf (.ldx 0x01#8 0x11#8) shareState .xs 1 = some 0x11#8 ∧
    readOf (.ldx 0x01#8 0x11#8) shareState .ys 1 = some 0x2F#8 := by decide
/-- M18, M21. -/
theorem test_ldy : readOf (.ldy 0x05#8 0x22#8) shareState .ys 5 = some 0x22#8 ∧
    rspOf (.ldy 0x05#8 0x22#8) shareState = some 0x0000#16 := by decide
/-- P3.4. -/
theorem test_rdx : rspOf (.rdx 0x01#8) shareState = some 0x0004#16 := by decide
/-- P3.7. -/
theorem test_rdy : rspOf (.rdy 0x02#8) shareState = some 0x00B4#16 := by decide
/-- P2.19. -/
theorem test_rddeg : rspOf .rddeg shareState = some 0x0002#16 := by decide
/-- P3.1. -/
theorem test_rdns : rspOf .rdns shareState = some 0x0003#16 := by decide
/-- E11. -/
theorem test_eval : rspOf (.eval 0x03#8) shareState = some 0x0056#16 := by decide
/-- E8. -/
theorem test_eval_zero : rspOf (.eval 0x00#8) shareState = some 0x0068#16 := by decide
/-- V4, V6, V7: `MEVAL` at 0x02, 0x04, 0x05. -/
theorem test_meval : readOf .meval shareState .ys 0 = some 0xCD#8 ∧ readOf .meval shareState .ys 2 = some 0xB4#8 := by decide
/-- P3.8. -/
theorem test_interp : rspOf (.interp 0x00#8) shareState = some 0x0068#16 := by decide
/-- I20, I21, I22: a repeated x is a domain error unless a match hides it. -/
theorem test_interp_repeat : rspOf (.interp 0x00#8) repeatState = some 0x0200#16 ∧
    rspOf (.interp 0x01#8) repeatState = some 0x0005#16 ∧ rspOf (.interp 0x02#8) repeatState = some 0x0007#16 := by decide
/-- X1. -/
theorem test_rdst : rspOf .rdst readyState = some 0x0001#16 := by decide
/-- X24. -/
theorem test_rdst_flags : rspOf .rdst readyState.setDomerr.setIllerr = some 0x0007#16 := by decide

/-! ### The steps of the unit -/

/-- X14: an illegal word in flight sets ILLERR only. -/
theorem test_step_illegal : ∃ t, step (inFlight 0x04000100#32) = .next t ∧ t.rsp = some 0x0100#16 ∧ t.statusByte = 0x05#8 :=
  ⟨_, rfl, by decide, by decide⟩
/-- The first step after reset builds the tables and sets READY (R182). -/
theorem test_step_build : step State.reset = .next readyState := rfl
/-- The word that `withFetchWord` places runs in the very next step after reset. -/
theorem test_fetch_word : step (State.reset.withFetchWord 32 0x01578300) =
    exec (.add 0x57#8 0x83#8) (State.reset.withFetchWord 32 0x01578300) := rfl
/-- A second reset drops the command in flight (R181). -/
theorem test_step_reset : ∃ t, step { inFlight 0x04000100#32 with rst := true } = .next t ∧ t.cmd = none ∧ t.ready = false :=
  ⟨_, rfl, rfl, by decide⟩

/-! ### Witnesses: for each statement with hypotheses, a state and operands that meet all of them -/

theorem built_readyState : readyState.TablesBuilt := State.tablesBuilt_of_built rfl rfl
theorem built_shareState : shareState.TablesBuilt := State.tablesBuilt_of_built rfl rfl
theorem built_repeatState : repeatState.TablesBuilt := State.tablesBuilt_of_built rfl rfl

theorem distinct_shareState : shareState.DistinctXs := by
  have h : ∀ i < 3, ∀ j < 3, shareState.memRead .xs i = shareState.memRead .xs j → i = j := by decide
  exact fun i j hi hj => h i hi j hj

theorem witness_DecodeEncodeRoundTrip : (Instr.div 0xFF#8 0x00#8).wellFormed = true ∧ Instr.rdst.wellFormed = true := by decide
theorem witness_EncodeDecodeRoundTrip : decode 0x30000000#32 = .ok .rdst := by decide
theorem witness_DecodesExactlyTableRows : (∃ row ∈ opcodeTable, 0x01FFFF00#32 &&& row.mask = row.pattern) ∧
    decode 0x01FFFF00#32 = .ok (.add 0xFF#8 0xFF#8) := by decide
theorem witness_IllegalWordsExactly : (inFlight 0x03578301#32).rst = false ∧ (inFlight 0x03578301#32).ready = true ∧
    (inFlight 0x03578301#32).rsp = none ∧ (inFlight 0x03578301#32).cmd = some 0x03578301#32 ∧
    ∃ e, decode 0x03578301#32 = .error e := ⟨rfl, by decide, rfl, rfl, .reservedZ, by decide⟩
/-- A word of each class of R69, at the ends of the ranges of opcodes. -/
theorem witness_IllegalWordsExactly_classes :
    decode 0x00000000#32 = .error .unknownOpcode ∧
    decode 0x08000000#32 = .error .unknownOpcode ∧
    decode 0x0F000000#32 = .error .unknownOpcode ∧
    decode 0x1A000000#32 = .error .unknownOpcode ∧
    decode 0x1F000000#32 = .error .unknownOpcode ∧
    decode 0x23000000#32 = .error .unknownOpcode ∧
    decode 0x2F000000#32 = .error .unknownOpcode ∧
    decode 0x31000000#32 = .error .unknownOpcode ∧
    decode 0xFF000000#32 = .error .unknownOpcode ∧
    decode 0x010000FF#32 = .error .reservedZ ∧
    decode 0x04000100#32 = .error .reservedB ∧
    decode 0x2200FF00#32 = .error .reservedB ∧
    decode 0x18000100#32 = .error .reservedB ∧
    decode 0x30FF0000#32 = .error .reservedA := by decide
theorem witness_ByteSequenceRoundTrip : decodeBytes [0x30#8, 0x00#8, 0x00#8, 0x00#8] = .ok (.rdst, []) ∧
    decode 0x03578301#32 = .error .reservedZ ∧ cmdOfBytes [0x30#8, 0x00#8, 0x00#8, 0x00#8] = some (0x30000000#32, []) ∧
    rspOfBytes [0x02#8, 0x00#8] = some (0x0200#16, []) := by decide
theorem witness_AssemblerRoundTrip : decode 0x01000000#32 = .ok (.add 0x00#8 0x00#8) ∧
    decode 0xFFFFFFFF#32 = .error .unknownOpcode ∧
    assembleCommand { name := ['A', 'D', 'D'], operands := [0, 255] } = some 0x0100FF00#32 := by decide
theorem witness_PseudoCommandsLoad : (1 ≤ [0x42#8].length ∧ [0x42#8].length ≤ 256) ∧
    (List.replicate 256 0x01#8 : List Byte).length ≤ 256 ∧ ([] : List Byte).length ≤ 255 ∧
    (List.replicate 255 0x01#8 : List Byte).length ≤ 255 :=
  ⟨by decide, by rw [List.length_replicate], by decide, by rw [List.length_replicate]⟩
theorem witness_ResetStepDropsEverything : ({ inFlight 0x30000000#32 with rst := true } : State).rst = true := rfl
theorem witness_TableBuilderFillsTables : State.reset.rst = false ∧ State.reset.ready = false := by decide
theorem witness_CommandsHeldBeforeReady : State.reset.ready = false ∧ State.reset.rst = false := by decide
theorem witness_StepRunsDecodedCommand : (inFlight 0x30000000#32).rst = false ∧ (inFlight 0x30000000#32).ready = true ∧
    (inFlight 0x30000000#32).rsp = none ∧ (inFlight 0x30000000#32).cmd = some 0x30000000#32 ∧
    decode 0x30000000#32 = .ok .rdst := ⟨rfl, by decide, rfl, rfl, by decide⟩

/-- A word is presented to an idle unit. -/
def presented : State := { readyState with cmdIn := [0x30000000#32] }
/-- A response is presented to a host that is ready. -/
def responding : State := { readyState with rsp := some 0x0001#16 }
/-- A response is presented to a host that is not ready. -/
def waiting : State := { responding with rspReady := false }

theorem witness_PortHandshake_accept : (∃ t, step presented = .next t) ∧ presented.cmdReady = true ∧ presented.cmdValid = true :=
  ⟨⟨_, rfl⟩, by decide, by decide⟩
theorem witness_PortHandshake_noAccept : (∃ t, step waiting = .next t) ∧ waiting.cmdReady = false ∧ readyState.cmdValid = false ∧
    ∃ t, step readyState = .next t := ⟨⟨_, rfl⟩, by decide, by decide, ⟨_, rfl⟩⟩
theorem witness_PortHandshake_transfer : (∃ t, step responding = .next t) ∧ responding.rst = false ∧ responding.ready = true ∧
    responding.rspReady = true ∧ responding.rsp = some 0x0001#16 := ⟨⟨_, rfl⟩, rfl, by decide, rfl, rfl⟩
theorem witness_PortHandshake_hold : (∃ t, step waiting = .next t) ∧ waiting.rst = false ∧ waiting.ready = true ∧
    waiting.rspReady = false ∧ waiting.rspValid = true := ⟨⟨_, rfl⟩, rfl, by decide, rfl, rfl⟩
theorem witness_IdleKeepsState : readyState.rst = false ∧ readyState.ready = true ∧ readyState.cmd = none ∧
    readyState.rsp = none ∧ readyState.cmdIn = [] := ⟨rfl, by decide, rfl, rfl, rfl⟩
theorem witness_CommandsRunInProgramOrder : presented.rst = false ∧ presented.rspReady = true ∧ presented.cmd = none ∧
    presented.rsp = none ∧ presented.cmdIn = [0x30000000#32] ++ [] ∧ presented.ready = true :=
  ⟨rfl, rfl, rfl, rfl, rfl, by decide⟩
/-- The same from a unit that has just been reset. -/
theorem witness_CommandsRunInProgramOrder_reset : State.reset.rst = false ∧ State.reset.rspReady = true ∧
    State.reset.cmd = none ∧ State.reset.rsp = none ∧ State.reset.cmdIn = [] ++ [] ∧ State.reset.ready = false :=
  ⟨rfl, rfl, rfl, rfl, rfl, by decide⟩

/-- A ready unit that meets the invariant, with a word in flight. -/
theorem inv_inFlight (w : CmdWord) : (inFlight w).Inv where
  coefWf := rfl
  xsWf := rfl
  ysWf := rfl
  reserved := by simp only [inFlight]; decide
  tables := fun _ => State.tablesBuilt_of_built rfl rfl
  fresh := fun h => absurd h (by simp [inFlight, readyState, State.ready, State.reset, readyBit])
  oneInFlight := .inr rfl
  legalRsp := fun _ h => by cases h
  legalOut := fun _ h => by cases h
  latched := ⟨fun h => (by cases h), fun h => (by cases h)⟩

theorem witness_StepKeepsInvariant : (inFlight 0x04000000#32).Inv ∧ ∃ t, step (inFlight 0x04000000#32) = .next t :=
  ⟨inv_inFlight _, _, rfl⟩
theorem witness_HostMovesKeepInvariant : (inFlight 0x30000000#32).Inv := inv_inFlight _
theorem witness_StickyErrorFlags : (inFlight 0x04000000#32).rst = false ∧ (∃ t, step (inFlight 0x04000000#32) = .next t) ∧
    (inFlight 0x04000000#32).ready = true ∧ (inFlight 0x04000000#32).rsp = none ∧
    (inFlight 0x04000000#32).cmd = some 0x04000000#32 := ⟨rfl, ⟨_, rfl⟩, by decide, rfl, rfl⟩
theorem witness_StickyErrorFlags_other : responding.rst = false ∧ (∃ t, step responding = .next t) ∧
    ¬(responding.ready = true ∧ responding.rsp = none ∧ responding.cmd.isSome = true) := ⟨rfl, ⟨_, rfl⟩, by decide⟩
theorem witness_TablesImmutable : readyState.ready = true ∧ readyState.rst = false ∧ ∃ t, step readyState = .next t :=
  ⟨by decide, rfl, _, rfl⟩
theorem witness_StateWrittenOnlyBy : (∃ t, exec .meval shareState = .next t) ∧ (∃ t, exec (.ldc 0xFF#8 0x00#8) shareState = .next t) ∧
    ∃ t, exec (.inv 0x00#8) shareState = .next t := ⟨⟨_, rfl⟩, ⟨_, rfl⟩, ⟨_, rfl⟩⟩
theorem witness_FlagsDoNotAffectCommands : Instr.inv 0x00#8 ≠ .rdst ∧ Instr.meval ≠ .rdst := by decide
theorem witness_FieldCommandsReadOnlyTables : shareState.mult = readyState.mult ∧ shareState.invt = readyState.invt ∧
    shareState.epoch = readyState.epoch ∧ (∃ t, exec (.div 0x01#8 0xFF#8) readyState = .next t) ∧
    ∃ t, exec (.div 0x01#8 0xFF#8) shareState = .next t := ⟨rfl, rfl, rfl, ⟨_, rfl⟩, ⟨_, rfl⟩⟩
theorem witness_MulbIsFieldMultiplication : (0x01#8 : Byte) ≠ 0x00#8 ∧ (0xFF#8 : Byte) ≠ 0x00#8 := by decide
theorem witness_Pow254IsInverse : (0x01#8 : Byte) ≠ 0x00#8 ∧ (0xFF#8 : Byte) ≠ 0x00#8 := by decide
theorem witness_MulRespond : readyState.TablesBuilt := built_readyState
theorem witness_InvRespond : readyState.TablesBuilt ∧ (0xFF#8 : Byte) ≠ 0x00#8 := ⟨built_readyState, by decide⟩
theorem witness_DivRespond : readyState.TablesBuilt ∧ (0xFF#8 : Byte) ≠ 0x00#8 ∧ (0x01#8 : Byte) ≠ 0x00#8 :=
  ⟨built_readyState, by decide, by decide⟩
theorem witness_BitPathCommandsRespond : readyState.TablesBuilt ∧ (0x01#8 : Byte) ≠ 0x00#8 := ⟨built_readyState, by decide⟩
theorem witness_FieldLawsOfCommands : readyState.TablesBuilt ∧ (0x01#8 : Byte) ≠ 0x00#8 ∧ (0xFF#8 : Byte) ≠ 0x00#8 :=
  ⟨built_readyState, by decide, by decide⟩
theorem witness_ReadAfterLoad : ∃ t u, exec (.ldc 0xFF#8 0xAA#8) readyState = .next t ∧ exec (.rdc 0xFF#8) t = .next u :=
  ⟨_, _, rfl, rfl⟩
theorem witness_ReadAfterLoad_x : ∃ t u, exec (.ldx 0x00#8 0x01#8) readyState = .next t ∧ exec (.rdx 0x00#8) t = .next u :=
  ⟨_, _, rfl, rfl⟩
theorem witness_ReadAfterLoad_y : ∃ t u, exec (.ldy 0x00#8 0x01#8) readyState = .next t ∧ exec (.rdy 0x00#8) t = .next u :=
  ⟨_, _, rfl, rfl⟩
theorem witness_ReadAfterLoad_twice : ∃ t u, exec (.ldy 0xFF#8 0x01#8) readyState = .next t ∧
    exec (.ldy 0xFF#8 0x01#8) t = .next u := ⟨_, _, rfl, rfl⟩
theorem witness_ReadAfterLoad_reads : ∃ t u, exec (.rdc 0x09#8) readyState = .next t ∧ exec (.rdc 0x09#8) t = .next u :=
  ⟨_, _, rfl, rfl⟩
theorem witness_EvalRespond : readyState.deg = 0x00#8 ∧ shareState.TablesBuilt ∧ (∃ t, exec (.eval 0x01#8) shareState = .next t) :=
  ⟨rfl, built_shareState, _, rfl⟩
/-- Two states that differ above `DEG`. -/
theorem witness_EvalRespond_above : ∃ s' : State, s'.deg = shareState.deg ∧ s'.mult = shareState.mult ∧
    s'.epoch = shareState.epoch ∧ (∀ k, k ≤ shareState.deg.toNat → s'.memRead .coef k = shareState.memRead .coef k) ∧
    (∃ t, exec (.eval 0x03#8) shareState = .next t) ∧ ∃ t', exec (.eval 0x03#8) s' = .next t' := by
  refine ⟨shareState.writeCoef 3 0x77#8, rfl, rfl, rfl, ?_, ⟨_, rfl⟩, ⟨_, rfl⟩⟩
  intro k hk
  have hk' : k ≤ 2 := hk
  rw [State.memRead_writeCoef, if_neg (by omega)]
theorem witness_MevalRespond : readyState.ns = 0x00#8 ∧ 2 < shareState.ns.toNat ∧ readyState.deg = 0x00#8 := by decide
theorem witness_MevalRespond_equal : 0 < repeatState.ns.toNat ∧ 1 < repeatState.ns.toNat ∧
    repeatState.memRead .xs 0 = repeatState.memRead .xs 1 := by decide
theorem witness_MevalRespond_zero : 0 < ({ readyState with ns := 1#8, xs := [(0, 0x00#8)] } : State).ns.toNat ∧
    ({ readyState with ns := 1#8, xs := [(0, 0x00#8)] } : State).memRead .xs 0 = 0x00#8 := by decide
theorem witness_MevalLanes : 2 < shareState.ns.toNat ∧ 2 < (shareState.writeXs 0 0x77#8).ns.toNat ∧
    (shareState.writeXs 0 0x77#8).memRead .xs 2 = shareState.memRead .xs 2 ∧
    (∃ t, exec .meval shareState = .next t) ∧ (∃ t', exec .meval (shareState.writeXs 0 0x77#8) = .next t') ∧
    (shareState.writeXs 0 0x77#8).deg = shareState.deg ∧ (shareState.writeXs 0 0x77#8).mult = shareState.mult ∧
    (shareState.writeXs 0 0x77#8).epoch = shareState.epoch ∧
    ∀ j, j ≤ shareState.deg.toNat → (shareState.writeXs 0 0x77#8).memRead .coef j = shareState.memRead .coef j :=
  ⟨by decide, by decide, by decide, ⟨_, rfl⟩, ⟨_, rfl⟩, rfl, rfl, rfl, fun _ _ => rfl⟩
theorem witness_MevalLanes_inactive : shareState.ns.toNat ≤ 3 ∧ ∃ t u, exec .meval shareState = .next t ∧ exec .meval t = .next u :=
  ⟨by decide, _, _, rfl, rfl⟩
theorem witness_PipelineComputesMeval : shareState.TablesBuilt ∧ ∃ t, exec .meval shareState = .next t :=
  ⟨built_shareState, _, rfl⟩

theorem noRepeat_shareState (x : Byte) : ¬shareState.RepeatCase x := by
  rintro ⟨-, -, i, hi, -, j, hj, hne, heq⟩
  exact hne (distinct_shareState j i hj hi heq)

theorem witness_InterpRespond : shareState.TablesBuilt ∧ ¬shareState.RepeatCase 0x00#8 ∧ readyState.ns = 0x00#8 :=
  ⟨built_shareState, noRepeat_shareState _, rfl⟩
theorem witness_InterpRespond_one : (readyState.setNs 0x01#8).TablesBuilt ∧ (readyState.setNs 0x01#8).ns = 0x01#8 :=
  ⟨State.tablesBuilt_of_built rfl rfl, rfl⟩
/-- I20: the case of R131. -/
theorem witness_InterpRespond_repeat : repeatState.TablesBuilt ∧ repeatState.RepeatCase 0x00#8 := by
  have h : ∀ k < 3, repeatState.memRead .xs k ≠ 0x00#8 := by decide
  exact ⟨built_repeatState, by decide, fun k hk => h k hk, 0, by decide, by decide, 1, by decide, by decide, by decide⟩
theorem witness_InterpRespond_match : 1 < shareState.ns.toNat ∧ shareState.memRead .xs 1 = 0x04#8 ∧
    ∀ j, j < 1 → shareState.memRead .xs j ≠ 0x04#8 := by
  have h : ∀ j < 1, shareState.memRead .xs j ≠ 0x04#8 := by decide
  exact ⟨by decide, by decide, fun j hj => h j hj⟩
/-- I18: every live y is zero. -/
theorem witness_InterpRespond_zeros : ∃ s : State, 0 < s.ns.toNat ∧ ∀ k, k < s.ns.toNat → s.memRead .ys k = 0x00#8 := by
  refine ⟨{ readyState with ns := 2#8, ys := [(0, 0x00#8), (1, 0x00#8)] }, by decide, ?_⟩
  have h : ∀ k < 2, ({ readyState with ns := 2#8, ys := [(0, 0x00#8), (1, 0x00#8)] } : State).memRead .ys k = 0x00#8 := by decide
  exact fun k hk => h k hk
/-- I21: the lowest match among repeated x values. -/
theorem witness_ExactMatchComesFirst : 0 < repeatState.ns.toNat ∧ repeatState.memRead .xs 0 = 0x01#8 ∧
    ∀ j, j < 0 → repeatState.memRead .xs j ≠ 0x01#8 := ⟨by decide, by decide, fun j h => absurd h (Nat.not_lt_zero j)⟩
theorem witness_ExactMatchComesFirst_none : shareState.TablesBuilt ∧
    (∀ k, k < shareState.ns.toNat → shareState.memRead .xs k ≠ 0x00#8) ∧ 2 < shareState.ns.toNat := by
  have h : ∀ k < 3, shareState.memRead .xs k ≠ 0x00#8 := by decide
  exact ⟨built_shareState, fun k hk => h k hk, by decide⟩
theorem witness_ZeroTermSkip : shareState.TablesBuilt ∧ shareState.DistinctXs := ⟨built_shareState, distinct_shareState⟩
/-- I24: skipping avoids the domain error of a repeated x. -/
theorem witness_ZeroTermSkip_repeat :
    let s : State := { repeatState with ys := [(0, 0x00#8), (1, 0x00#8), (2, 0x07#8)] }
    let value := fun skip =>
      interpolate s.gfMul s.gfDiv skip (fun k => s.memRead .xs k) (fun k => s.memRead .ys k) s.ns.toNat 0x00#8
    s.TablesBuilt ∧ value true ≠ value false :=
  ⟨State.tablesBuilt_of_built rfl rfl, by decide⟩
theorem witness_InterpDomainErrorExactly : repeatState.TablesBuilt := built_repeatState
/-- R131's three conditions hold together. -/
theorem witness_InterpDomainErrorExactly_case : 1 ≤ repeatState.ns.toNat ∧
    (∀ i, i < repeatState.ns.toNat → repeatState.memRead .xs i ≠ 0x00#8) ∧
    ∃ i, i < repeatState.ns.toNat ∧ repeatState.memRead .ys i ≠ 0x00#8 ∧
      ∃ j, j < repeatState.ns.toNat ∧ j ≠ i ∧ repeatState.memRead .xs j = repeatState.memRead .xs i := by
  have h : ∀ k < 3, repeatState.memRead .xs k ≠ 0x00#8 := by decide
  exact ⟨by decide, fun k hk => h k hk, 0, by decide, by decide, 1, by decide, by decide, by decide⟩
/-- P2's polynomial at P3's samples. -/
theorem witness_InterpRecoversPolynomial : ∃ c : Nat → Byte, shareState.TablesBuilt ∧ shareState.DistinctXs ∧
    2 < shareState.ns.toNat ∧
    ∀ k, k < shareState.ns.toNat → shareState.memRead .ys k = evaluate gfMulb c 2 (shareState.memRead .xs k) := by
  have h : ∀ k < 3, shareState.memRead .ys k =
      evaluate gfMulb (fun i => shareState.memRead .coef i) 2 (shareState.memRead .xs k) := by decide
  exact ⟨_, built_shareState, distinct_shareState, by decide, fun k hk => h k hk⟩
theorem witness_SplitThenCombine : shareState.TablesBuilt ∧ shareState.DistinctXs ∧ shareState.deg.toNat < shareState.ns.toNat ∧
    ∃ t, exec .meval shareState = .next t := ⟨built_shareState, distinct_shareState, by decide, _, rfl⟩
/-- The samples of P3 with the first two exchanged. -/
theorem witness_SampleOrderIrrelevant :
    let p : Nat → Nat := fun k => if k = 0 then 1 else if k = 1 then 0 else k
    let s' : State := { shareState with xs := [(0, 0x04#8), (1, 0x02#8), (2, 0x05#8)], ys := [(0, 0x2F#8), (1, 0xCD#8), (2, 0xB4#8)] }
    shareState.TablesBuilt ∧ s'.TablesBuilt ∧ shareState.DistinctXs ∧ s'.ns = shareState.ns ∧
    (∀ k, k < shareState.ns.toNat → p k < shareState.ns.toNat) ∧
    (∀ j k, j < shareState.ns.toNat → k < shareState.ns.toNat → p j = p k → j = k) ∧
    (∀ k, k < shareState.ns.toNat →
      s'.memRead .xs k = shareState.memRead .xs (p k) ∧ s'.memRead .ys k = shareState.memRead .ys (p k)) ∧
    (∃ t, exec (.interp 0x00#8) shareState = .next t) ∧ ∃ t', exec (.interp 0x00#8) s' = .next t' := by
  intro p s'
  have h1 : ∀ k < 3, p k < 3 := by decide
  have h2 : ∀ j < 3, ∀ k < 3, p j = p k → j = k := by decide
  have h3 : ∀ k < 3, s'.memRead .xs k = shareState.memRead .xs (p k) ∧ s'.memRead .ys k = shareState.memRead .ys (p k) := by
    decide
  exact ⟨built_shareState, State.tablesBuilt_of_built rfl rfl, distinct_shareState, rfl, fun k hk => h1 k hk,
    fun j k hj hk => h2 j hj k hk, fun k hk => h3 k hk, ⟨_, rfl⟩, ⟨_, rfl⟩⟩
theorem witness_RdstRespond : readyState.ready = true := by decide
theorem witness_OutcomeOfEachCommand : repeatState.TablesBuilt ∧ repeatState.DomainCase (.inv 0x00#8) ∧
    ¬repeatState.DomainCase (.inv 0x01#8) ∧ ¬repeatState.DomainCase .rdst :=
  ⟨built_repeatState, rfl, by simp [State.DomainCase], by simp [State.DomainCase]⟩
theorem witness_ErrorsChangeOnlyTheirFlag : ∃ t, step (inFlight 0x05120000#32) = .next t ∧ t.rsp = some 0x0200#16 :=
  ⟨_, rfl, by decide⟩
theorem witness_ErrorsChangeOnlyTheirFlag_illegal : (inFlight 0x00000000#32).rst = false ∧
    (inFlight 0x00000000#32).ready = true ∧ (inFlight 0x00000000#32).rsp = none ∧
    (inFlight 0x00000000#32).cmd.isSome = true ∧ ∃ t, step (inFlight 0x00000000#32) = .next t ∧ t.rsp = some 0x0100#16 :=
  ⟨rfl, by decide, rfl, rfl, _, rfl, by decide⟩
theorem witness_IllegalBeforeDomain : (inFlight 0x04000100#32).rst = false ∧ (inFlight 0x04000100#32).ready = true ∧
    (inFlight 0x04000100#32).rsp = none ∧ (inFlight 0x04000100#32).cmd = some 0x04000100#32 := ⟨rfl, by decide, rfl, rfl⟩
theorem witness_FrameOfReadOnlyCommands : (∃ t, exec (.interp 0x00#8) repeatState = .next t) ∧
    ∃ t, exec (.eval 0xFF#8) shareState = .next t := ⟨⟨_, rfl⟩, ⟨_, rfl⟩⟩
theorem witness_FrameOfWritingCommands : (∃ t, exec (.setdeg 0xFF#8) shareState = .next t) ∧
    (∃ t, exec (.setns 0xFF#8) shareState = .next t) ∧ (∃ t, exec (.ldc 0xFF#8 0xFF#8) shareState = .next t) ∧
    (∃ t, exec (.ldx 0x00#8 0xFF#8) shareState = .next t) ∧ (∃ t, exec (.ldy 0xFF#8 0x00#8) shareState = .next t) ∧
    ∃ t, exec .meval shareState = .next t := ⟨⟨_, rfl⟩, ⟨_, rfl⟩, ⟨_, rfl⟩, ⟨_, rfl⟩, ⟨_, rfl⟩, ⟨_, rfl⟩⟩

theorem witness_UnwrittenEntriesReadFree : readyState.stored? .coef 9 = none ∧ readyState.stored? .xs 0 = none ∧
    readyState.stored? .ys 255 = none ∧ readyState.rst = false ∧ ∃ t, step (inFlight 0x11000100#32) = .next t ∧
    t.stored? .coef 9 = none ∧ t.stored? .coef 0 = some 0x01#8 :=
  ⟨rfl, rfl, rfl, rfl, _, rfl, by decide, by decide⟩

end Sys2Proof.Tests
end

section
/-! The executor's move (00_scope.md R8, R9): a pending word of a ready unit runs as the command it decodes to. -/

namespace Sys2Proof

/-- Operands are bytes, and an encoded command has zero in every field its format reserves (30_encoding.md R61, R66). -/
@[simp] theorem Instr.wellFormed_eq_true (i : Instr) : i.wellFormed = true := by
  cases i <;> rfl

end Sys2Proof

namespace Sys2Proof.Machine

/-- On the executor's turn a word that decodes is run by `exec`, and by nothing else. -/
theorem step_eq_exec {s : State} {w : CmdWord} {i : Instr} (hphase : s.phase = .execute w)
    (hdec : decode w = .ok i) : step s = exec i s := by
  simp only [step, hphase, hdec]

/-- Settles O13: the pending word gives the executor the turn, and its step is `exec` of the decoded command. -/
theorem stepRunsDecodedCommand : Obligations.StepRunsDecodedCommand := by
  intro s w i hrst hready hrsp hcmd hdec
  have hphase : s.phase = .execute w := State.phase_of_cmd hrst hready hrsp hcmd
  exact ⟨i.wellFormed_eq_true, step_eq_exec hphase hdec⟩

end Sys2Proof.Machine
end

section
/-! What a step can do, as one named move for each case, and each command as one write and one response
(00_scope.md R8, R9; 10_state.md R20). -/

namespace Sys2Proof.Machine

/-! ### Response words (30_encoding.md R63) -/

theorem rspWord_inj {st st' data data' : Byte} (h : rspWord st data = rspWord st' data') : st = st' ∧ data = data' := by
  constructor
  · rw [← rspWord_status st data, h, rspWord_status]
  · rw [← rspWord_data st data, h, rspWord_data]

theorem rspWord_illegal : rspWord stIllegal 0x00#8 = 0x0100#16 := rfl

theorem rspWord_domain : rspWord stDomain 0x00#8 = 0x0200#16 := rfl

/-- An OK response is no ERR_ILLEGAL, whatever its data. -/
theorem rspWord_ok_ne_illegal (data : Byte) : rspWord stOk data ≠ 0x0100#16 := by
  rw [← rspWord_illegal]
  intro h
  exact absurd (rspWord_inj h).1 (by decide)

/-- An OK response is no ERR_DOMAIN, whatever its data. -/
theorem rspWord_ok_ne_domain (data : Byte) : rspWord stOk data ≠ 0x0200#16 := by
  rw [← rspWord_domain]
  intro h
  exact absurd (rspWord_inj h).1 (by decide)

/-! ### The moves of the unit -/

/-- `t` is the state after the one move that the unit makes from `s`. -/
inductive State.Move (s : State) : State → Prop where
  | reset (hrst : s.rst = true) : s.Move s.takeReset
  | build (hrst : s.rst = false) (hready : s.ready = false) : s.Move s.buildTables
  | transfer {r : RspWord} (hrst : s.rst = false) (hready : s.ready = true) (hrsp : s.rsp = some r) :
      s.Move (s.transferResponse r)
  | keep (hrst : s.rst = false) (hready : s.ready = true) (hquiet : s.rsp ≠ none ∨ s.cmd = none) : s.Move s
  | accept {w : CmdWord} {rest : List CmdWord} (hrst : s.rst = false) (hready : s.ready = true) (hrsp : s.rsp = none)
      (hcmd : s.cmd = none) : s.Move (s.acceptCommand w rest)
  | complete {w : CmdWord} {i : Instr} {u : State} {data : Byte} (hrst : s.rst = false) (hready : s.ready = true)
      (hrsp : s.rsp = none) (hcmd : s.cmd = some w) (hdec : decode w = .ok i) (hwrite : s.OneWrite u) :
      s.Move (u.respond stOk data)
  | domain {w : CmdWord} {i : Instr} (hrst : s.rst = false) (hready : s.ready = true) (hrsp : s.rsp = none)
      (hcmd : s.cmd = some w) (hdec : decode w = .ok i) : s.Move s.raiseDomain
  | illegal {w : CmdWord} {e : IllegalWord} (hrst : s.rst = false) (hready : s.ready = true) (hrsp : s.rsp = none)
      (hcmd : s.cmd = some w) (hdec : decode w = .error e) : s.Move s.raiseIllegal

/-- Every step is one of the moves. -/
theorem move_of_step {s t : State} (hstep : step s = .next t) : s.Move t := by
  rcases step_cases s with ⟨h1, hs⟩ | ⟨h1, h2, hs⟩ | ⟨h1, h2, r, h3, -, hs⟩ | ⟨h1, h2, ⟨r, h3⟩, -, hs⟩ |
    ⟨h1, h2, h3, w, h4, ⟨i, hdec, hs⟩ | ⟨e, hdec, hs⟩⟩ | ⟨h1, h2, h3, h4, w, rest, -, hs⟩ | ⟨h1, h2, -, h4, -, hs⟩ <;>
    rw [hs] at hstep
  · cases hstep; exact .reset h1
  · cases hstep; exact .build h1 h2
  · cases hstep; exact .transfer h1 h2 h3
  · cases hstep; exact .keep h1 h2 (.inl (by simp [h3]))
  · rcases exec_cases i s with ⟨u, data, hwrite, hexec⟩ | hexec <;> rw [hexec] at hstep <;> cases hstep
    · exact .complete h1 h2 h3 h4 hdec hwrite
    · exact .domain h1 h2 h3 h4 hdec
  · cases hstep; exact .illegal h1 h2 h3 h4 hdec
  · cases hstep; exact .accept h1 h2 h3 h4
  · cases hstep; exact .keep h1 h2 (.inr h4)

theorem step_of_rst {s : State} (hrst : s.rst = true) : step s = .next s.takeReset := by
  simp only [step, State.phase_of_rst hrst]

theorem step_of_notReady {s : State} (hrst : s.rst = false) (hready : s.ready = false) :
    step s = .next s.buildTables := by
  simp only [step, State.phase_of_notReady hrst hready]

/-- One write leaves every flag. -/
theorem State.OneWrite.flags {s u : State} (h : s.OneWrite u) :
    u.ready = s.ready ∧ u.domerr = s.domerr ∧ u.illerr = s.illerr := by
  obtain ⟨-, -, hstatus, -⟩ := h.frame
  exact ⟨State.ready_congr hstatus, State.domerr_congr hstatus, State.illerr_congr hstatus⟩

/-! ### A command is at most one write and one response -/

/-- `s` after the write of a command that completes (the "written by" column of R20). -/
def writtenBy (i : Instr) (s : State) : State :=
  match i with
  | .setdeg d => s.setDeg d
  | .setns n => s.setNs n
  | .ldc k v => s.writeCoef (effIndex k) v
  | .ldx k v => s.writeXs (effIndex k) v
  | .ldy k v => s.writeYs (effIndex k) v
  | .meval => s.writeYsRun s.liveValues
  | _ => s

/-- The data byte a command responds with, or none where it raises DomainError (30_encoding.md R64). -/
def resultOf (i : Instr) (s : State) : Option Byte :=
  match i with
  | .add a b => some (gfAdd a b)
  | .sub a b => some (gfAdd a b)
  | .mul a b => some (s.gfMul a b)
  | .inv a => s.gfInv a
  | .div a b => s.gfDiv a b
  | .mulb a b => some (gfMulb a b)
  | .invb a => if a = 0x00#8 then none else some (gfPow254 a)
  | .rdc k => some (s.coefAt k)
  | .rdx k => some (s.xsAt k)
  | .rdy k => some (s.ysAt k)
  | .rddeg => some s.deg
  | .rdns => some s.ns
  | .eval x => some (s.evalAt x)
  | .interp x => s.interpAt x
  | .rdst => some s.statusByte
  | _ => some 0x00#8

/-- What every command does: its write, then its response. -/
theorem exec_eq_respondResult (i : Instr) (s : State) :
    exec i s = .next ((writtenBy i s).respondResult (resultOf i s)) := by
  cases i <;> rfl

/-- The write of a command is one of the writes of R20. -/
theorem oneWrite_writtenBy (i : Instr) (s : State) : s.OneWrite (writtenBy i s) := by
  cases i
  case setdeg d => exact .inr (.inl ⟨d, rfl⟩)
  case setns n => exact .inr (.inr (.inl ⟨n, rfl⟩))
  case ldc k v => exact .inr (.inr (.inr (.inl ⟨k, v, rfl⟩)))
  case ldx k v => exact .inr (.inr (.inr (.inr (.inl ⟨k, v, rfl⟩))))
  case ldy k v => exact .inr (.inr (.inr (.inr (.inr (.inl ⟨k, v, rfl⟩)))))
  case meval => exact .inr (.inr (.inr (.inr (.inr (.inr rfl)))))
  all_goals exact .inl rfl

theorem writtenBy_deg {i : Instr} (s : State) (h : ∀ d, i ≠ .setdeg d) : (writtenBy i s).deg = s.deg := by
  cases i
  case setdeg d => exact absurd rfl (h d)
  all_goals rfl

theorem writtenBy_ns {i : Instr} (s : State) (h : ∀ n, i ≠ .setns n) : (writtenBy i s).ns = s.ns := by
  cases i
  case setns n => exact absurd rfl (h n)
  all_goals rfl

theorem writtenBy_coef {i : Instr} (s : State) (h : ∀ k v, i ≠ .ldc k v) : (writtenBy i s).coef = s.coef := by
  cases i
  case ldc k v => exact absurd rfl (h k v)
  all_goals rfl

theorem writtenBy_xs {i : Instr} (s : State) (h : ∀ k v, i ≠ .ldx k v) : (writtenBy i s).xs = s.xs := by
  cases i
  case ldx k v => exact absurd rfl (h k v)
  all_goals rfl

theorem writtenBy_ys {i : Instr} (s : State) (h : ∀ k v, i ≠ .ldy k v) (hmeval : i ≠ .meval) :
    (writtenBy i s).ys = s.ys := by
  cases i
  case ldy k v => exact absurd rfl (h k v)
  case meval => exact absurd rfl hmeval
  all_goals rfl

/-- Only the inversions, the division and the interpolation can raise DomainError (60_exceptions.md R153), and they
write nothing. -/
theorem of_resultOf_eq_none {i : Instr} {s : State} (h : resultOf i s = none) :
    ((∃ a, i = .inv a) ∨ (∃ a, i = .invb a) ∨ (∃ a b, i = .div a b) ∨ ∃ x, i = .interp x) ∧
      writtenBy i s = s := by
  cases i
  case inv a => exact ⟨.inl ⟨a, rfl⟩, rfl⟩
  case invb a => exact ⟨.inr (.inl ⟨a, rfl⟩), rfl⟩
  case div a b => exact ⟨.inr (.inr (.inl ⟨a, b, rfl⟩)), rfl⟩
  case interp x => exact ⟨.inr (.inr (.inr ⟨x, rfl⟩)), rfl⟩
  all_goals cases h

/-- STATUS is no operand of a command's write. -/
theorem writtenBy_withStatus (i : Instr) (s : State) (v : Byte) :
    writtenBy i { s with status := v } = { writtenBy i s with status := v } := by
  cases i <;> rfl

/-- STATUS is no operand of a command's result, but for `RDST`. -/
theorem resultOf_withStatus {i : Instr} (s : State) (v : Byte) (h : i ≠ .rdst) :
    resultOf i { s with status := v } = resultOf i s := by
  cases i
  case rdst => exact absurd rfl h
  all_goals rfl

end Sys2Proof.Machine
end

section
/-! Each move keeps the invariant of the machine (10_state.md R27 to R36). -/

namespace Sys2Proof.Machine

/-- What READY 0 says of the unit in `State.Inv`: it is as reset left it. -/
def State.AsReset (s : State) : Prop :=
  s.status = 0x00#8 ∧ s.deg = 0x00#8 ∧ s.ns = 0x00#8 ∧ s.coef = [] ∧ s.xs = [] ∧ s.ys = [] ∧ s.cmd = none ∧ s.rsp = none

/-- A unit that is as reset left it meets the invariant, whatever responses of R64 the host has received. -/
theorem State.AsReset.inv {s : State} (h : s.AsReset) (hout : ∀ r ∈ s.rspOut, LegalResponse r) : s.Inv := by
  obtain ⟨hstatus, hdeg, hns, hcoef, hxs, hys, hcmd, hrsp⟩ := h
  exact {
    coefWf := hcoef ▸ Memory.wf_nil
    xsWf := hxs ▸ Memory.wf_nil
    ysWf := hys ▸ Memory.wf_nil
    reserved := by rw [hstatus]; decide
    tables := fun hready => by simp [State.ready, hstatus] at hready
    fresh := fun _ => ⟨hstatus, hdeg, hns, hcoef, hxs, hys, hcmd, hrsp⟩
    oneInFlight := .inl hcmd
    legalRsp := by simp [hrsp]
    legalOut := hout
    latched := by simp [hrsp] }

theorem State.asReset_reset : State.reset.AsReset := ⟨rfl, rfl, rfl, rfl, rfl, rfl, rfl, rfl⟩

theorem State.asReset_takeReset (s : State) : s.takeReset.AsReset := ⟨rfl, rfl, rfl, rfl, rfl, rfl, rfl, rfl⟩

/-- A flag of R29 that is set leaves the reserved bits 0. -/
theorem reserved_or {v flag : Byte} (hv : v &&& 0xF8#8 = 0x00#8) (hflag : flag &&& 0xF8#8 = 0x00#8) :
    (v ||| flag) &&& 0xF8#8 = 0x00#8 := by
  rw [BitVec.and_or_distrib_right, hv, hflag]
  rfl

namespace State.Inv

variable {s : State}

/-- The builder's step: the unit before it is as reset left it, and the tables after it are built (R182). -/
theorem buildTables (h : s.Inv) (hready : s.ready = false) : s.buildTables.Inv := by
  obtain ⟨hstatus, -, -, -, -, -, -, hrsp⟩ := h.fresh hready
  exact {
    coefWf := h.coefWf
    xsWf := h.xsWf
    ysWf := h.ysWf
    reserved := reserved_or h.reserved rfl
    tables := fun _ => tablesBuilt_of_built rfl rfl
    fresh := by simp
    oneInFlight := h.oneInFlight
    legalRsp := h.legalRsp
    legalOut := h.legalOut
    latched := by simp [hrsp] }

theorem transferResponse {r : RspWord} (h : s.Inv) (hready : s.ready = true) (hrsp : s.rsp = some r) :
    (s.transferResponse r).Inv where
  coefWf := h.coefWf
  xsWf := h.xsWf
  ysWf := h.ysWf
  reserved := h.reserved
  tables := fun hr => (h.tables hr).congr rfl rfl rfl
  fresh := by simp [hready]
  oneInFlight := .inr rfl
  legalRsp := by simp
  legalOut := by
    intro r' hr'
    rcases List.mem_append.mp hr' with hold | hnew
    · exact h.legalOut r' hold
    · rw [List.mem_singleton.mp hnew]
      exact h.legalRsp r hrsp
  latched := by simp

theorem acceptCommand (h : s.Inv) (hready : s.ready = true) (hrsp : s.rsp = none) (w : CmdWord) (rest : List CmdWord) :
    (s.acceptCommand w rest).Inv where
  coefWf := h.coefWf
  xsWf := h.xsWf
  ysWf := h.ysWf
  reserved := h.reserved
  tables := fun hr => (h.tables hr).congr rfl rfl rfl
  fresh := by simp [hready]
  oneInFlight := .inr hrsp
  legalRsp := h.legalRsp
  legalOut := h.legalOut
  latched := h.latched

/-- The write of a command on a ready unit. -/
theorem oneWrite {u : State} (h : s.Inv) (hready : s.ready = true) (hwrite : s.OneWrite u) : u.Inv := by
  obtain ⟨hcoef, hxs, hys⟩ := hwrite.wf h.coefWf h.xsWf h.ysWf
  obtain ⟨hmult, hinvt, hstatus, hcmd, hrsp, -, -, -, hout, hepoch⟩ := hwrite.frame
  obtain ⟨hflagR, hflagD, hflagI⟩ := hwrite.flags
  exact {
    coefWf := hcoef
    xsWf := hxs
    ysWf := hys
    reserved := hstatus ▸ h.reserved
    tables := fun _ => (h.tables hready).congr hmult hinvt hepoch
    fresh := by simp [hflagR, hready]
    oneInFlight := by rw [hcmd, hrsp]; exact h.oneInFlight
    legalRsp := hrsp ▸ h.legalRsp
    legalOut := hout ▸ h.legalOut
    latched := by rw [hrsp, hflagI, hflagD]; exact h.latched }

/-- The latching of a flag of R29 on a ready unit. -/
theorem setFlag {flag : Byte} (h : s.Inv) (hready : s.ready = true) (hflag : flag &&& 0xF8#8 = 0x00#8) :
    ({ s with status := s.status ||| flag } : State).Inv where
  coefWf := h.coefWf
  xsWf := h.xsWf
  ysWf := h.ysWf
  reserved := reserved_or h.reserved hflag
  tables := fun _ => (h.tables hready).congr rfl rfl rfl
  fresh := fun hr => by simp_all [State.ready]
  oneInFlight := h.oneInFlight
  legalRsp := h.legalRsp
  legalOut := h.legalOut
  latched := by
    obtain ⟨hillerr, hdomerr⟩ := h.latched
    simp_all [State.illerr, State.domerr]

theorem setDomerr (h : s.Inv) (hready : s.ready = true) : s.setDomerr.Inv := h.setFlag hready rfl

theorem setIllerr (h : s.Inv) (hready : s.ready = true) : s.setIllerr.Inv := h.setFlag hready rfl

/-- A response of R64 on a ready unit; an error code asks for its flag. -/
theorem respond {st data : Byte} (h : s.Inv) (hready : s.ready = true) (hlegal : LegalResponse (rspWord st data))
    (hillegal : rspWord st data = 0x0100#16 → s.illerr = true)
    (hdomain : rspWord st data = 0x0200#16 → s.domerr = true) : (s.respond st data).Inv where
  coefWf := h.coefWf
  xsWf := h.xsWf
  ysWf := h.ysWf
  reserved := h.reserved
  tables := fun hr => (h.tables hr).congr rfl rfl rfl
  fresh := by simp [hready]
  oneInFlight := .inl rfl
  legalRsp := fun _ hr => Option.some.inj hr ▸ hlegal
  legalOut := h.legalOut
  latched := ⟨fun hr => hillegal (Option.some.inj hr), fun hr => hdomain (Option.some.inj hr)⟩

theorem respondOk (h : s.Inv) (hready : s.ready = true) (data : Byte) : (s.respond stOk data).Inv :=
  h.respond hready (.inl (rspWord_status stOk data)) (fun hr => absurd hr (rspWord_ok_ne_illegal data))
    (fun hr => absurd hr (rspWord_ok_ne_domain data))

theorem raiseDomain (h : s.Inv) (hready : s.ready = true) : s.raiseDomain.Inv :=
  (h.setDomerr hready).respond (by simp [hready]) (.inr (.inr rspWord_domain)) (by simp [rspWord_domain])
    (by simp)

theorem raiseIllegal (h : s.Inv) (hready : s.ready = true) : s.raiseIllegal.Inv :=
  (h.setIllerr hready).respond (by simp [hready]) (.inr (.inl rspWord_illegal)) (by simp)
    (by simp [rspWord_illegal])

/-- Every move keeps the invariant. -/
theorem move {t : State} (h : s.Inv) (hmove : s.Move t) : t.Inv := by
  cases hmove with
  | reset _ => exact s.asReset_takeReset.inv h.legalOut
  | build _ hready => exact h.buildTables hready
  | transfer _ hready hrsp => exact h.transferResponse hready hrsp
  | keep => exact h
  | accept _ hready hrsp _ => exact h.acceptCommand hready hrsp _ _
  | complete _ hready _ _ _ hwrite =>
    exact (h.oneWrite hready hwrite).respondOk (hwrite.flags.1.trans hready) _
  | domain _ hready => exact h.raiseDomain hready
  | illegal _ hready => exact h.raiseIllegal hready

end State.Inv

/-- Settles O17: a step is one of the moves, and each move keeps the invariant. -/
theorem stepKeepsInvariant : Obligations.StepKeepsInvariant :=
  fun _ _ hinv hstep => hinv.move (move_of_step hstep)

/-- Settles O18: the reset state is as reset leaves the unit, and the host has received nothing. -/
theorem resetMeetsInvariant : Obligations.ResetMeetsInvariant :=
  State.asReset_reset.inv (by simp [State.reset])

end Sys2Proof.Machine
end

section
/-! The flags and the tables over a step, and what a command writes and reads (10_state.md R20, R31 to R36). -/

namespace Sys2Proof.Machine

/-- A move of the executor latches DOMERR exactly with ERR_DOMAIN, and ILLERR exactly on an illegal word. -/
theorem State.Move.flags_of_execute {s t : State} {w : CmdWord} (hmove : s.Move t) (hrst : s.rst = false)
    (hready : s.ready = true) (hrsp : s.rsp = none) (hcmd : s.cmd = some w) :
    (t.domerr = true ↔ s.domerr = true ∨ t.rsp = some 0x0200#16) ∧
    (t.illerr = true ↔ s.illerr = true ∨ ∃ e, decode w = .error e) := by
  cases hmove with
  | reset hrst' => simp [hrst] at hrst'
  | build _ hready' => simp [hready] at hready'
  | transfer _ _ hrsp' => simp [hrsp] at hrsp'
  | keep _ _ hquiet => simp [hrsp, hcmd] at hquiet
  | accept _ _ _ hcmd' => simp [hcmd] at hcmd'
  | complete _ _ _ hcmd' hdec hwrite =>
    obtain ⟨-, hdomerr, hillerr⟩ := hwrite.flags
    cases hcmd.symm.trans hcmd'
    simp [hdomerr, hillerr, hdec, rspWord_ok_ne_domain]
  | domain _ _ _ hcmd' hdec =>
    cases hcmd.symm.trans hcmd'
    simp [hdec, rspWord_domain]
  | illegal _ _ _ hcmd' hdec =>
    cases hcmd.symm.trans hcmd'
    simp [hdec, rspWord_illegal]

/-- A move of another agent than reset and the executor leaves both error flags. -/
theorem State.Move.flags_of_not_execute {s t : State} (hmove : s.Move t) (hrst : s.rst = false)
    (hother : ¬(s.ready = true ∧ s.rsp = none ∧ s.cmd.isSome = true)) :
    t.domerr = s.domerr ∧ t.illerr = s.illerr := by
  cases hmove with
  | reset hrst' => simp [hrst] at hrst'
  | build => simp
  | transfer => simp
  | keep => simp
  | accept => simp
  | complete _ hready hrsp hcmd => exact absurd ⟨hready, hrsp, by simp [hcmd]⟩ hother
  | domain _ hready hrsp hcmd => exact absurd ⟨hready, hrsp, by simp [hcmd]⟩ hother
  | illegal _ hready hrsp hcmd => exact absurd ⟨hready, hrsp, by simp [hcmd]⟩ hother

/-- Settles O20: a step is one of the moves, and only the executor's move touches an error flag. -/
theorem stickyErrorFlags : Obligations.StickyErrorFlags := by
  intro s t hrst hstep
  have hmove := move_of_step hstep
  exact ⟨fun w hready hrsp hcmd => hmove.flags_of_execute hrst hready hrsp hcmd, hmove.flags_of_not_execute hrst⟩

/-- No move of a ready unit whose `rst` is low writes a table or READY. -/
theorem State.Move.tables_of_ready {s t : State} (hmove : s.Move t) (hready : s.ready = true) (hrst : s.rst = false) :
    t.mult = s.mult ∧ t.invt = s.invt ∧ t.ready = true := by
  cases hmove with
  | reset hrst' => simp [hrst] at hrst'
  | build _ hready' => simp [hready] at hready'
  | transfer => simp [hready]
  | keep => simp [hready]
  | accept => simp [hready]
  | complete _ _ _ _ _ hwrite =>
    obtain ⟨hmult, hinvt, -⟩ := hwrite.frame
    exact ⟨hmult, hinvt, hwrite.flags.1.trans hready⟩
  | domain => simp [hready]
  | illegal => simp [hready]

/-- Settles O21: no move of a ready unit writes a table, and a host move drives a pin or presents a word. -/
theorem tablesImmutable : Obligations.TablesImmutable := by
  refine ⟨fun s t hready hrst hstep => (move_of_step hstep).tables_of_ready hready hrst, fun s m => ?_⟩
  cases m <;> exact ⟨rfl, rfl, rfl⟩

/-- Settles O23: a command makes its one write and responds, or raises DomainError, which is left to four commands. -/
theorem stateWrittenOnlyBy : Obligations.StateWrittenOnlyBy := by
  intro i s t hexec
  rw [exec_eq_respondResult] at hexec
  cases hexec
  obtain ⟨hmult, hinvt, hstatus, -, -, -, -, -, -, hepoch⟩ := (oneWrite_writtenBy i s).frame
  cases hres : resultOf i s with
  | some v =>
    exact ⟨writtenBy_deg s, writtenBy_ns s, writtenBy_coef s, writtenBy_xs s, writtenBy_ys s, hmult, hinvt, hepoch,
      .inl hstatus⟩
  | none =>
    obtain ⟨hfour, hwritten⟩ := of_resultOf_eq_none hres
    rw [hwritten]
    simp [domerrBit, hfour]

/-- Settles O24: neither the write nor the result of a command reads STATUS, and DOMERR is set where there is no result. -/
theorem flagsDoNotAffectCommands : Obligations.FlagsDoNotAffectCommands := by
  intro i s v hi
  obtain ⟨-, -, hstatus, -⟩ := (oneWrite_writtenBy i s).frame
  simp only [exec_eq_respondResult, writtenBy_withStatus, resultOf_withStatus s v hi]
  cases hres : resultOf i s with
  | some data =>
    refine ⟨_, v, rfl, rfl, .inl ⟨hstatus, rfl, ?_⟩⟩
    simp [rspWord_ok_ne_domain]
  | none =>
    refine ⟨_, v ||| 0x02#8, rfl, rfl, .inr ⟨?_, rfl, ?_⟩⟩
    · simp [hstatus, domerrBit]
    · simp [rspWord_domain]

/-- Where no memory and no table holds a byte, no space does. -/
theorem State.stored?_eq_none {s : State} (hcoef : s.coef = []) (hxs : s.xs = []) (hys : s.ys = []) (hmult : s.mult = [])
    (hinvt : s.invt = []) (S : Space) (k : Nat) : s.stored? S k = none := by
  cases S <;> simp [State.stored?, hcoef, hxs, hys, hmult, hinvt]

/-- Settles O9: the fields of the reset state, and the empty memories and tables. -/
theorem resetStateValues : Obligations.ResetStateValues :=
  ⟨rfl, rfl, rfl, rfl, rfl, rfl, rfl, rfl, State.stored?_eq_none rfl rfl rfl rfl rfl⟩

/-- Settles O10: with `rst` high the step is the reset's, and once `rst` is low the next one is the builder's. -/
theorem resetStepDropsEverything : Obligations.ResetStepDropsEverything := by
  intro s hrst
  have hbuild : step { s.takeReset with rst := false } = .next ({ s.takeReset with rst := false } : State).buildTables :=
    step_of_notReady rfl s.ready_takeReset
  obtain ⟨hmult, hinvt⟩ :=
    State.tablesBuilt_of_built (s := ({ s.takeReset with rst := false } : State).buildTables) rfl rfl
  exact ⟨s.takeReset, step_of_rst hrst, rfl, rfl, s.ready_takeReset, s.domerr_takeReset, s.illerr_takeReset, by simp,
    State.stored?_eq_none rfl rfl rfl rfl rfl, rfl, rfl, rfl, by simp [State.cmdReady], rfl, s.ready_takeReset,
    _, hbuild, State.ready_buildTables _, hmult, hinvt⟩

end Sys2Proof.Machine
end

section
/-! Serialised words (20_memory.md R42): the bytes of a word are read back as the word, and nothing else is read. -/

namespace Sys2Proof

/-! ### Command words -/

/-- The word whose fields are four given bytes has those bytes, in order. -/
theorem cmdBytes_append (op a b z : Byte) : cmdBytes (op ++ a ++ b ++ z) = [op, a, b, z] :=
  cmdBytes_wordOf ⟨op, a, b, z⟩

@[simp] theorem cmdOfBytes_cmdBytes_append (w : CmdWord) (rest : List Byte) :
    cmdOfBytes (cmdBytes w ++ rest) = some (w, rest) :=
  congrArg (fun w' => some (w', rest)) (wordOf_fieldsOf w)

/-- The word at the head of four bytes and more is the only one with those bytes. -/
theorem cmdOfBytes_eq_some_iff {bs rest : List Byte} {w : CmdWord} :
    cmdOfBytes bs = some (w, rest) ↔ bs = cmdBytes w ++ rest := by
  constructor
  · intro h
    match bs with
    | [] | [_] | [_, _] | [_, _, _] => cases h
    | op :: a :: b :: z :: bs' =>
      cases h
      rw [cmdBytes_wordOf]
      rfl
  · rintro rfl
    exact cmdOfBytes_cmdBytes_append w rest

theorem cmdOfBytes_eq_none_iff {bs : List Byte} : cmdOfBytes bs = none ↔ bs.length < 4 := by
  match bs with
  | [] | [_] | [_, _] | [_, _, _] => simp [cmdOfBytes]
  | _ :: _ :: _ :: _ :: _ => simp

/-! ### Response words -/

/-- A response word is its status byte, then its data byte (30_encoding.md R63). -/
theorem rspWord_status_data (r : RspWord) : Machine.rspWord (r.extractLsb' 8 8) (r.extractLsb' 0 8) = r := by
  rw [Machine.rspWord, BitVec.extractLsb'_append_extractLsb'_eq_extractLsb' (by omega), BitVec.extractLsb'_eq_self]

@[simp] theorem rspOfBytes_rspBytes_append (r : RspWord) (rest : List Byte) :
    rspOfBytes (rspBytes r ++ rest) = some (r, rest) :=
  congrArg (fun r' => some (r', rest)) (rspWord_status_data r)

theorem rspOfBytes_eq_some_iff {bs rest : List Byte} {r : RspWord} :
    rspOfBytes bs = some (r, rest) ↔ bs = rspBytes r ++ rest := by
  constructor
  · intro h
    match bs with
    | [] | [_] => cases h
    | st :: data :: bs' =>
      cases h
      exact congrArg (· ++ rest) (Machine.rspBytes_rspWord st data).symm
  · rintro rfl
    exact rspOfBytes_rspBytes_append r rest

theorem rspOfBytes_eq_none_iff {bs : List Byte} : rspOfBytes bs = none ↔ bs.length < 2 := by
  match bs with
  | [] | [_] => simp [rspOfBytes]
  | _ :: _ :: _ => simp

/-! ### Commands -/

/-- The decoder reads from a command's word that command (30_encoding.md R66). -/
theorem decode_encode (i : Instr) : decode (encode i) = .ok i := by
  rw [decode, encode, fieldsOf_wordOf]
  cases i <;> rfl

/-- Decoding a word's bytes is decoding the word: the bytes after it are what is left. -/
theorem decodeBytes_cmdBytes_append (w : CmdWord) (rest : List Byte) :
    decodeBytes (cmdBytes w ++ rest) = (decode w).map (·, rest) := by
  rw [decodeBytes, cmdOfBytes_cmdBytes_append]
  cases h : decode w <;> simp [h, Except.map]

theorem decodeBytes_encodeBytes_append (i : Instr) (rest : List Byte) :
    decodeBytes (encodeBytes i ++ rest) = .ok (i, rest) := by
  rw [encodeBytes, decodeBytes_cmdBytes_append, decode_encode]
  rfl

theorem decodeBytes_error {w : CmdWord} {e : IllegalWord} (h : decode w = .error e) (rest : List Byte) :
    decodeBytes (cmdBytes w ++ rest) = .error e := by
  rw [decodeBytes_cmdBytes_append, h]
  rfl

/-- Four bytes and more decode as the word they make does. -/
theorem decodeBytes_cons_eq_ok_iff {op a b z : Byte} {rest : List Byte} {i : Instr} :
    decodeBytes (op :: a :: b :: z :: rest) = .ok (i, rest) ↔ decode (op ++ a ++ b ++ z) = .ok i := by
  have hbytes : op :: a :: b :: z :: rest = cmdBytes (op ++ a ++ b ++ z) ++ rest := by
    rw [cmdBytes_append]
    rfl
  rw [hbytes, decodeBytes_cmdBytes_append]
  cases decode (op ++ a ++ b ++ z) <;> simp [Except.map]

/-- Settles O6: a byte sequence reads as a word exactly when it begins with the word's bytes, and decodes as that word. -/
theorem byteSequenceRoundTrip : Obligations.ByteSequenceRoundTrip :=
  ⟨fun w rest => ⟨cmdOfBytes_cmdBytes_append w rest, rfl⟩, cmdBytes_append, fun _ _ _ => cmdOfBytes_eq_some_iff,
    fun _ => cmdOfBytes_eq_none_iff, fun r rest => ⟨rspOfBytes_rspBytes_append r rest, rfl⟩, Machine.rspBytes_rspWord,
    fun _ _ _ => rspOfBytes_eq_some_iff, fun _ => rspOfBytes_eq_none_iff, decodeBytes_encodeBytes_append, fun _ => rfl,
    fun _ rest _ h => decodeBytes_error h rest, fun _ _ _ _ _ _ => decodeBytes_cons_eq_ok_iff⟩

end Sys2Proof
end

section
/-! Loads, reads and the field commands (20_memory.md R44, R46, R52; 41_polymem.md R110), each as its one write and its
one response. -/

namespace Sys2Proof.Machine

/-! ### The entry just written -/

theorem State.coefAt_writeCoef_same (s : State) (k v : Byte) : (s.writeCoef (effIndex k) v).coefAt k = v := by
  simp [State.coefAt, State.memRead_writeCoef]

theorem State.xsAt_writeXs_same (s : State) (k v : Byte) : (s.writeXs (effIndex k) v).xsAt k = v := by
  simp [State.xsAt, State.memRead_writeXs]

theorem State.ysAt_writeYs_same (s : State) (k v : Byte) : (s.writeYs (effIndex k) v).ysAt k = v := by
  simp [State.ysAt, State.memRead_writeYs]

/-- Of two writes of one address the second alone counts. -/
@[simp] theorem Memory.write_write_same (m : Memory) (i : Nat) (v v' : Byte) :
    (m.write i v).write i v' = m.write i v' := by
  induction m with
  | nil => simp [Memory.write]
  | cons c m ih =>
    rcases Nat.lt_trichotomy i c.1 with hlt | heq | hgt
    · simp [Memory.write, hlt]
    · simp [Memory.write, heq]
    · simp [Memory.write, hgt.not_gt, hgt.ne', ih]

theorem State.writeCoef_writeCoef_same (s : State) (i : Nat) (v v' : Byte) :
    (s.writeCoef i v).writeCoef i v' = s.writeCoef i v' := by simp [State.writeCoef]

theorem State.writeXs_writeXs_same (s : State) (k : Nat) (v v' : Byte) :
    (s.writeXs k v).writeXs k v' = s.writeXs k v' := by simp [State.writeXs]

theorem State.writeYs_writeYs_same (s : State) (k : Nat) (v v' : Byte) :
    (s.writeYs k v).writeYs k v' = s.writeYs k v' := by simp [State.writeYs]

/-! ### Commands that complete, one after another -/

/-- A command with a result leaves its write and the OK response. -/
theorem eq_respond_of_exec {i : Instr} {s t : State} {v : Byte} (hres : resultOf i s = some v)
    (hexec : exec i s = .next t) : t = (writtenBy i s).respond stOk v := by
  rw [exec_eq_respondResult, hres] at hexec
  exact (Host.Outcome.next.inj hexec).symm

/-- A command that after itself has the same result and nothing new to write does nothing the second time. -/
theorem exec_twice {i : Instr} {s t u : State} {v : Byte} (hres : resultOf i s = some v)
    (hres' : resultOf i ((writtenBy i s).respond stOk v) = some v)
    (hwrite : writtenBy i ((writtenBy i s).respond stOk v) = (writtenBy i s).respond stOk v)
    (hfirst : exec i s = .next t) (hsecond : exec i t = .next u) : u = t := by
  obtain rfl := eq_respond_of_exec hres hfirst
  rw [eq_respond_of_exec hres' hsecond, hwrite]
  rfl

/-- A command that reads what the load before it has written responds with that byte. -/
theorem rsp_of_exec_exec {load read : Instr} {s t u : State} {v v' : Byte} (hload : resultOf load s = some v')
    (hread : resultOf read ((writtenBy load s).respond stOk v') = some v)
    (hfirst : exec load s = .next t) (hsecond : exec read t = .next u) : u.rsp = some (0x00#8 ++ v) := by
  obtain rfl := eq_respond_of_exec hload hfirst
  rw [eq_respond_of_exec hread hsecond]
  rfl

/-- Settles O37: a read finds the byte of the load before it, and neither a load nor a read does more when repeated. -/
theorem readAfterLoad : Obligations.ReadAfterLoad := by
  intro k v s t u
  refine ⟨rsp_of_exec_exec rfl ?coef, rsp_of_exec_exec rfl ?xs, rsp_of_exec_exec rfl ?ys,
    exec_twice rfl rfl ?coefTwice, exec_twice rfl rfl ?xsTwice, exec_twice rfl rfl ?ysTwice,
    exec_twice rfl rfl rfl, exec_twice rfl rfl rfl, exec_twice rfl rfl rfl⟩
  case coef => exact congrArg some (s.coefAt_writeCoef_same k v)
  case xs => exact congrArg some (s.xsAt_writeXs_same k v)
  case ys => exact congrArg some (s.ysAt_writeYs_same k v)
  case coefTwice => exact congrArg (·.respond stOk 0x00#8) (s.writeCoef_writeCoef_same (effIndex k) v v)
  case xsTwice => exact congrArg (·.respond stOk 0x00#8) (s.writeXs_writeXs_same (effIndex k) v v)
  case ysTwice => exact congrArg (·.respond stOk 0x00#8) (s.writeYs_writeYs_same (effIndex k) v v)

/-! ### The field commands -/

/-- A table lookup of multiplication depends on MULT and the draw in force only. -/
theorem State.gfMul_congr {s s' : State} (hmult : s'.mult = s.mult) (hepoch : s'.epoch = s.epoch) (a b : Byte) :
    s'.gfMul a b = s.gfMul a b := by
  simp only [State.gfMul, State.memRead, State.stored?, hmult, hepoch]

/-- The inverse depends on INVT and the draw in force only. -/
theorem State.gfInv_congr {s s' : State} (hinvt : s'.invt = s.invt) (hepoch : s'.epoch = s.epoch) (a : Byte) :
    s'.gfInv a = s.gfInv a := by
  simp only [State.gfInv, State.memRead, State.stored?, hinvt, hepoch]

theorem State.gfDiv_congr {s s' : State} (hmult : s'.mult = s.mult) (hinvt : s'.invt = s.invt)
    (hepoch : s'.epoch = s.epoch) (a b : Byte) : s'.gfDiv a b = s.gfDiv a b := by
  simp only [State.gfDiv, State.gfInv_congr hinvt hepoch, State.gfMul_congr hmult hepoch]

/-- The seven field commands on two operands (40_field.md R88 to R94). -/
def fieldCommands (a b : Byte) : List Instr :=
  [.add a b, .sub a b, .mul a b, .mulb a b, .inv a, .invb a, .div a b]

theorem writtenBy_fieldCommands {a b : Byte} {i : Instr} (hi : i ∈ fieldCommands a b) (s : State) :
    writtenBy i s = s := by
  simp only [fieldCommands, List.mem_cons, List.not_mem_nil, or_false] at hi
  rcases hi with rfl | rfl | rfl | rfl | rfl | rfl | rfl <;> rfl

/-- The result of a field command depends on the tables and the draw in force only. -/
theorem resultOf_fieldCommands_congr {a b : Byte} {i : Instr} (hi : i ∈ fieldCommands a b) {s s' : State}
    (hmult : s'.mult = s.mult) (hinvt : s'.invt = s.invt) (hepoch : s'.epoch = s.epoch) :
    resultOf i s' = resultOf i s := by
  simp only [fieldCommands, List.mem_cons, List.not_mem_nil, or_false] at hi
  rcases hi with rfl | rfl | rfl | rfl | rfl | rfl | rfl
  · rfl
  · rfl
  · exact congrArg some (State.gfMul_congr hmult hepoch a b)
  · rfl
  · exact State.gfInv_congr hinvt hepoch a
  · rfl
  · exact State.gfDiv_congr hmult hinvt hepoch a b

/-- The response word to a result depends on the result only. -/
theorem State.respondResult_rsp_eq (s s' : State) (r : Option Byte) :
    (s.respondResult r).rsp = (s'.respondResult r).rsp := by
  cases r <;> rfl

/-- A response leaves the two registers and the three memories. -/
theorem State.respondResult_frame (s : State) (r : Option Byte) :
    (s.respondResult r).deg = s.deg ∧ (s.respondResult r).ns = s.ns ∧ (s.respondResult r).coef = s.coef ∧
      (s.respondResult r).xs = s.xs ∧ (s.respondResult r).ys = s.ys := by
  cases r <;> exact ⟨rfl, rfl, rfl, rfl, rfl⟩

/-- Settles O25: a field command writes nothing, and its response is that of a result computed from the tables. -/
theorem fieldCommandsReadOnlyTables : Obligations.FieldCommandsReadOnlyTables := by
  intro a b s s' t t' hmult hinvt hepoch i hi hexec hexec'
  rw [exec_eq_respondResult, writtenBy_fieldCommands hi] at hexec hexec'
  rw [resultOf_fieldCommands_congr hi hmult hinvt hepoch] at hexec'
  cases hexec
  cases hexec'
  exact ⟨s.respondResult_rsp_eq s' _, s.respondResult_frame _⟩

end Sys2Proof.Machine
end

section
/-! The ports (20_memory.md R46 to R48): what crosses them in a step, and a run over the words the host presents. -/

namespace Sys2Proof.Machine

/-! ### The executor's move, for every word -/

/-- `s` after the executor's move on a word: the command's write and response, or IllegalCommand (60_exceptions.md R151,
R155). -/
def executed (w : CmdWord) (s : State) : State :=
  match decode w with
  | .ok i => (writtenBy i s).respondResult (resultOf i s)
  | .error _ => s.raiseIllegal

theorem executed_of_ok {w : CmdWord} {i : Instr} (h : decode w = .ok i) (s : State) :
    executed w s = (writtenBy i s).respondResult (resultOf i s) := by
  simp only [executed, h]

theorem executed_of_error {w : CmdWord} {e : IllegalWord} (h : decode w = .error e) (s : State) :
    executed w s = s.raiseIllegal := by
  simp only [executed, h]

theorem step_of_cmd {s : State} {w : CmdWord} (hrst : s.rst = false) (hready : s.ready = true) (hrsp : s.rsp = none)
    (hcmd : s.cmd = some w) : step s = .next (executed w s) := by
  have hphase := State.phase_of_cmd hrst hready hrsp hcmd
  cases hdec : decode w with
  | ok i => rw [step_eq_exec hphase hdec, exec_eq_respondResult, executed_of_ok hdec]
  | error e => simp only [step, hphase, hdec, executed_of_error hdec]

/-- A response to a result, or the error, is a response word, and it leaves READY and the host's wires and words. -/
theorem State.respondResult_ports (s : State) (r : Option Byte) :
    (∃ word, (s.respondResult r).rsp = some word) ∧ (s.respondResult r).cmd = none ∧
      (s.respondResult r).ready = s.ready ∧ (s.respondResult r).rst = s.rst ∧
      (s.respondResult r).rspReady = s.rspReady ∧ (s.respondResult r).cmdIn = s.cmdIn ∧
      (s.respondResult r).rspOut = s.rspOut := by
  cases r <;> simp

/-- The executor's move presents exactly one response, and leaves READY and the host's wires and words. -/
theorem executed_ports (w : CmdWord) (s : State) :
    (∃ r, (executed w s).rsp = some r) ∧ (executed w s).cmd = none ∧ (executed w s).ready = s.ready ∧
      (executed w s).rst = s.rst ∧ (executed w s).rspReady = s.rspReady ∧ (executed w s).cmdIn = s.cmdIn ∧
      (executed w s).rspOut = s.rspOut := by
  cases hdec : decode w with
  | error e => simp [executed_of_error hdec]
  | ok i =>
    have hwrite := oneWrite_writtenBy i s
    obtain ⟨-, -, -, -, -, hrst, hrspReady, hcmdIn, hrspOut, -⟩ := hwrite.frame
    rw [executed_of_ok hdec, ← hwrite.flags.1, ← hrst, ← hrspReady, ← hcmdIn, ← hrspOut]
    exact State.respondResult_ports _ _

/-! ### What crosses the ports in a step (R47, R48) -/

theorem State.cmdReady_iff (s : State) :
    s.cmdReady = true ↔ s.ready = true ∧ s.cmd = none ∧ s.rsp = none ∧ s.rst = false := by
  simp [State.cmdReady, and_assoc]

theorem State.cmdReady_acceptCommand (s : State) (w : CmdWord) (rest : List CmdWord) :
    (s.acceptCommand w rest).cmdReady = false := by
  simp [State.cmdReady]

theorem step_of_cmdReady {s : State} {w : CmdWord} {rest : List CmdWord} (hcmdReady : s.cmdReady = true)
    (hcmdIn : s.cmdIn = w :: rest) : step s = .next (s.acceptCommand w rest) := by
  obtain ⟨hready, hcmd, hrsp, hrst⟩ := s.cmdReady_iff.mp hcmdReady
  simp only [step, State.phase_of_cmdIn hrst hready hrsp hcmd hcmdIn]

theorem step_of_rsp {s : State} {r : RspWord} (hrst : s.rst = false) (hready : s.ready = true) (hrsp : s.rsp = some r)
    (hrspReady : s.rspReady = true) : step s = .next (s.transferResponse r) := by
  simp only [step, State.phase_of_rsp hrst hready hrsp, hrspReady, if_true]

/-- While the host does not accept the response, the unit keeps its whole state (R48). -/
theorem step_of_waiting {s : State} {r : RspWord} (hrst : s.rst = false) (hready : s.ready = true)
    (hrsp : s.rsp = some r) (hrspReady : s.rspReady = false) : step s = .next s := by
  simp [step, State.phase_of_rsp hrst hready hrsp, hrspReady]

/-- A step transfers a command word, or a response word, or nothing crosses the ports. -/
theorem ports_of_step {s t : State} (hstep : step s = .next t) :
    (s.cmdReady = true ∧ s.cmdValid = true ∧ t.rspOut = s.rspOut) ∨
    (s.rst = false ∧ s.ready = true ∧ s.rspReady = true ∧ s.rsp ≠ none ∧ t.cmdIn = s.cmdIn) ∨
    (t.cmdIn = s.cmdIn ∧ t.rspOut = s.rspOut) := by
  rcases s.phase_cases with ⟨hrst, -⟩ | ⟨hrst, hready, -⟩ | ⟨hrst, hready, r, hrsp, hrspReady, -⟩ |
    ⟨hrst, hready, ⟨r, hrsp⟩, hrspReady, -⟩ | ⟨hrst, hready, hrsp, w, hcmd, -⟩ |
    ⟨hrst, hready, hrsp, hcmd, w, rest, hcmdIn, -⟩ | ⟨hrst, hready, hrsp, hcmd, hcmdIn, hphase⟩
  · cases (step_of_rst hrst).symm.trans hstep
    exact .inr (.inr ⟨rfl, rfl⟩)
  · cases (step_of_notReady hrst hready).symm.trans hstep
    exact .inr (.inr ⟨rfl, rfl⟩)
  · cases (step_of_rsp hrst hready hrsp hrspReady).symm.trans hstep
    exact .inr (.inl ⟨hrst, hready, hrspReady, by simp [hrsp], rfl⟩)
  · cases (step_of_waiting hrst hready hrsp hrspReady).symm.trans hstep
    exact .inr (.inr ⟨rfl, rfl⟩)
  · cases (step_of_cmd hrst hready hrsp hcmd).symm.trans hstep
    obtain ⟨-, -, -, -, -, hcmdIn, hrspOut⟩ := executed_ports w s
    exact .inr (.inr ⟨hcmdIn, hrspOut⟩)
  · have hcmdReady := s.cmdReady_iff.mpr ⟨hready, hcmd, hrsp, hrst⟩
    cases (step_of_cmdReady hcmdReady hcmdIn).symm.trans hstep
    exact .inl ⟨hcmdReady, by simp [State.cmdValid, hcmdIn], rfl⟩
  · simp only [step, hphase] at hstep
    cases hstep
    exact .inr (.inr ⟨rfl, rfl⟩)

/-- Settles O14: the port that a step serves is read from the state before it, and no other step moves a word. -/
theorem portHandshake : Obligations.PortHandshake := by
  refine ⟨State.cmdReady_iff, ?accepts, ?keepsWords, ?transfers, ?waits, ?keepsResponses⟩
  case accepts =>
    intro s t hstep hcmdReady hcmdValid
    cases hcmdIn : s.cmdIn with
    | nil => simp [State.cmdValid, hcmdIn] at hcmdValid
    | cons w rest =>
      cases (step_of_cmdReady hcmdReady hcmdIn).symm.trans hstep
      exact ⟨w, rfl, rfl, s.cmdReady_acceptCommand w rest⟩
  case keepsWords =>
    intro s t hstep hidle
    rcases ports_of_step hstep with ⟨hcmdReady, hcmdValid, -⟩ | ⟨-, -, -, -, hcmdIn⟩ | ⟨hcmdIn, -⟩
    · simp [hcmdReady, hcmdValid] at hidle
    · exact hcmdIn
    · exact hcmdIn
  case transfers =>
    intro s t hstep hrst hready hrspReady r hrsp
    exact Host.Outcome.next.inj (hstep.symm.trans (step_of_rsp hrst hready hrsp hrspReady))
  case waits =>
    intro s t hstep hrst hready hrspReady hvalid
    obtain ⟨r, hrsp⟩ := Option.isSome_iff_exists.mp hvalid
    exact Host.Outcome.next.inj (hstep.symm.trans (step_of_waiting hrst hready hrsp hrspReady))
  case keepsResponses =>
    intro s t hstep hidle
    rcases ports_of_step hstep with ⟨-, -, hrspOut⟩ | ⟨hrst, hready, hrspReady, hrsp, -⟩ | ⟨-, hrspOut⟩
    · exact hrspOut
    · simp [hrst, hready, hrspReady, hrsp] at hidle
    · exact hrspOut

/-! ### A command reads neither the command latch nor the host's words (R46) -/

theorem writtenBy_withCommands (i : Instr) (s : State) (c : Option CmdWord) (ws : List CmdWord) :
    writtenBy i { s with cmd := c, cmdIn := ws } = { writtenBy i s with cmd := c, cmdIn := ws } := by
  cases i <;> rfl

theorem resultOf_withCommands (i : Instr) (s : State) (c : Option CmdWord) (ws : List CmdWord) :
    resultOf i { s with cmd := c, cmdIn := ws } = resultOf i s := by
  cases i <;> rfl

theorem State.respondResult_withCommands (s : State) (r : Option Byte) (c : Option CmdWord) (ws : List CmdWord) :
    ({ s with cmd := c, cmdIn := ws } : State).respondResult r = { s.respondResult r with cmdIn := ws } := by
  cases r <;> rfl

/-- What the executor makes of a word does not depend on the words after it, nor on the latch that held it. -/
theorem executed_withCommands (w : CmdWord) (s : State) (c : Option CmdWord) (ws : List CmdWord) :
    executed w { s with cmd := c, cmdIn := ws } = { executed w s with cmdIn := ws } := by
  cases hdec : decode w with
  | ok i =>
    simp only [executed_of_ok hdec, writtenBy_withCommands, resultOf_withCommands, State.respondResult_withCommands]
  | error e => simp only [executed_of_error hdec]; rfl

/-- The command rules on one word are the executor's move and the transfer of the response it presents. -/
theorem afterCommand_eq {w : CmdWord} {s : State} {r : RspWord} (hrsp : (executed w s).rsp = some r) :
    afterCommand w s = some ((executed w s).transferResponse r) := by
  cases hdec : decode w with
  | ok i =>
    rw [executed_of_ok hdec] at hrsp ⊢
    simp only [afterCommand, hdec, exec_eq_respondResult, hrsp]
  | error e =>
    rw [executed_of_error hdec] at hrsp ⊢
    cases hrsp
    simp only [afterCommand, hdec]
    rfl

/-! ### Runs (R46, R47) -/

theorem run_succ_of_step {s t : State} (hstep : step s = .next t) (k : Nat) :
    Sys2Proof.core.run (k + 1) s = Sys2Proof.core.run k t := by
  have hcore : Sys2Proof.core.step s = .next t := hstep
  simp only [Host.Core.run, hcore]

/-- Between two commands: the unit has nothing in flight, and the host is ready for a response. -/
structure State.Between (s : State) : Prop where
  rst : s.rst = false
  ready : s.ready = true
  rspReady : s.rspReady = true
  cmd : s.cmd = none
  rsp : s.rsp = none

/-- One presented word takes three steps (log entry 2): it is accepted, it executes, and its response is transferred.
They make what the command rules make of it, whatever words come after it. -/
theorem run_command {s : State} {w : CmdWord} {rest : List CmdWord} (hs : s.Between) (hcmdIn : s.cmdIn = w :: rest) :
    ∃ t r, t.Between ∧ t.cmdIn = rest ∧ t.rspOut = s.rspOut ++ [r] ∧
      (∀ ws, afterCommand w { s with cmdIn := ws } = some { t with cmdIn := ws }) ∧
      ∀ k, Sys2Proof.core.run (k + 3) s = Sys2Proof.core.run k t := by
  obtain ⟨hrst, hready, hrspReady, hcmd, hrsp⟩ := hs
  have haccept := step_of_cmdReady (s.cmdReady_iff.mpr ⟨hready, hcmd, hrsp, hrst⟩) hcmdIn
  have hexecute : step (s.acceptCommand w rest) = .next (executed w (s.acceptCommand w rest)) :=
    step_of_cmd hrst hready hrsp rfl
  obtain ⟨⟨r, hr⟩, hcmd', hready', hrst', hrspReady', hcmdIn', hrspOut'⟩ := executed_ports w (s.acceptCommand w rest)
  have htransfer := step_of_rsp (hrst'.trans hrst) (hready'.trans hready) hr (hrspReady'.trans hrspReady)
  refine ⟨(executed w (s.acceptCommand w rest)).transferResponse r, r,
    ⟨hrst'.trans hrst, hready'.trans hready, hrspReady'.trans hrspReady, hcmd', rfl⟩, hcmdIn',
    congrArg (· ++ [r]) hrspOut', fun ws => ?_, fun k => ?_⟩
  · have hsame : executed w { s with cmdIn := ws } = { executed w (s.acceptCommand w rest) with cmdIn := ws } :=
      (executed_withCommands w s s.cmd ws).trans
        (congrArg ({ · with cmdIn := ws }) (executed_withCommands w s (some w) rest).symm)
    rw [afterCommand_eq (by rw [hsame]; exact hr), hsame]
    rfl
  · rw [run_succ_of_step haccept, run_succ_of_step hexecute, run_succ_of_step htransfer]

/-- The run over a list of presented words, three steps each, by induction on the list. -/
theorem run_commands {ws rest : List CmdWord} {s : State} (hs : s.Between) (hcmdIn : s.cmdIn = ws ++ rest) :
    ∃ t, afterCommands ws { s with cmdIn := rest } = some t ∧ Sys2Proof.core.run (3 * ws.length) s = .next t ∧
      t.Between ∧ t.cmdIn = rest ∧ ∃ rs : List RspWord, t.rspOut = s.rspOut ++ rs ∧ rs.length = ws.length := by
  induction ws generalizing s with
  | nil =>
    obtain rfl : s.cmdIn = rest := hcmdIn
    exact ⟨s, rfl, rfl, hs, rfl, [], by simp, rfl⟩
  | cons w ws ih =>
    obtain ⟨u, r, hu, huIn, huOut, hafter, hrun⟩ := run_command hs hcmdIn
    obtain ⟨t, htAfter, htRun, ht, htIn, rs, htOut, hlen⟩ := ih hu huIn
    refine ⟨t, ?_, (hrun _).trans htRun, ht, htIn, r :: rs, by simp [htOut, huOut], by simp [hlen]⟩
    simp only [afterCommands, hafter, htAfter]

/-- Settles O16: a ready unit runs word by word, and a unit with READY 0 is ready after the builder's step. -/
theorem commandsRunInProgramOrder : Obligations.CommandsRunInProgramOrder := by
  intro ws rest s hrst hrspReady hcmd hrsp hcmdIn
  constructor
  · intro hready
    obtain ⟨t, hafter, hrun, ht, htIn, hresponses⟩ := run_commands ⟨hrst, hready, hrspReady, hcmd, hrsp⟩ hcmdIn
    exact ⟨t, hafter, hrun, ht.cmd, ht.rsp, htIn, hresponses⟩
  · intro hready
    have hbuilt : s.buildTables.Between := ⟨hrst, s.ready_buildTables, hrspReady, hcmd, hrsp⟩
    obtain ⟨t, hafter, hrun, -⟩ := run_commands hbuilt hcmdIn
    refine ⟨t, hafter, ?_⟩
    rw [Nat.add_comm, run_succ_of_step (step_of_notReady hrst hready), hrun]

end Sys2Proof.Machine
end

section
/-! Decoding by rows (30_encoding.md R61, R65, R66): a legal word is the word of one command, and of one row of
the table. -/

namespace Sys2Proof

/-! ### One word, one command -/

@[simp] theorem fieldsOf_encode (i : Instr) : fieldsOf (encode i) = encodeFields i := fieldsOf_wordOf _

/-- The opcode map's row at a command's opcode has the command's format and makes the command from its operands. -/
theorem opcodeRow_encodeFields (i : Instr) : ∃ mk, opcodeRow (encodeFields i).op = some (formatOf i, mk) ∧
    mk (encodeFields i).a (encodeFields i).b = i := by
  cases i <;> exact ⟨_, rfl, rfl⟩

/-- The fields with zero in those that a format reserves (R61). -/
def Fields.clearReserved (fmt : Format) (f : Fields) : Fields :=
  match fmt with
  | .ab => ⟨f.op, f.a, f.b, 0#8⟩
  | .a => ⟨f.op, f.a, 0#8, 0#8⟩
  | .n => ⟨f.op, 0#8, 0#8, 0#8⟩

theorem Fields.clearReserved_of_wellFormed {fmt : Format} {f : Fields} (hwf : f.wellFormed fmt = true) :
    f.clearReserved fmt = f := by
  obtain ⟨op, a, b, z⟩ := f
  cases fmt <;> simp_all [Fields.wellFormed, Fields.clearReserved]

/-- A row of the opcode map makes commands of the row's format, with the row's opcode and the operands it is given. -/
theorem encodeFields_of_opcodeRow {op : Byte} {fmt : Format} {mk : Byte → Byte → Instr}
    (hrow : opcodeRow op = some (fmt, mk)) (a b z : Byte) :
    formatOf (mk a b) = fmt ∧ encodeFields (mk a b) = Fields.clearReserved fmt ⟨op, a, b, z⟩ := by
  revert hrow
  fun_cases opcodeRow op
  case case22 => intro hrow; cases hrow
  all_goals
    intro hrow
    subst op
    cases hrow
    exact ⟨rfl, rfl⟩

/-- The command that a row of the opcode map makes of a word has that word. -/
theorem encode_of_opcodeRow {w : CmdWord} {fmt : Format} {mk : Byte → Byte → Instr}
    (hrow : opcodeRow (fieldsOf w).op = some (fmt, mk)) (hwf : (fieldsOf w).wellFormed fmt = true) :
    encode (mk (fieldsOf w).a (fieldsOf w).b) = w := by
  obtain ⟨-, hfields⟩ := encodeFields_of_opcodeRow hrow (fieldsOf w).a (fieldsOf w).b (fieldsOf w).z
  rw [encode, hfields, Fields.clearReserved_of_wellFormed hwf, wordOf_fieldsOf]

theorem decode_eq_ok_iff {w : CmdWord} {i : Instr} : decode w = .ok i ↔ encode i = w := by
  constructor
  · intro hdec
    obtain ⟨fmt, mk, hrow, hwf, rfl⟩ := decodeFields_ok hdec
    exact encode_of_opcodeRow hrow hwf
  · rintro rfl
    exact decode_encode i

/-- Settles O2: the decoder reads every command from its word. -/
theorem decodeEncodeRoundTrip : Obligations.DecodeEncodeRoundTrip := fun i _ => decode_encode i

/-- Settles O3: a word decodes to a command only if it is that command's word. -/
theorem encodeDecodeRoundTrip : Obligations.EncodeDecodeRoundTrip := fun _ _ hdec => decode_eq_ok_iff.mp hdec

/-! ### The format of an opcode -/

/-- The format that R65 gives an opcode, none where it lists no command. -/
def formatAt (op : Byte) : Option Format := (opcodeRow op).map Prod.fst

/-- The words that decode: a listed opcode, and zero in the fields that its format reserves (R61). -/
theorem exists_decode_ok_iff {w : CmdWord} : (∃ i, decode w = .ok i) ↔
    ∃ fmt, formatAt (fieldsOf w).op = some fmt ∧ (fieldsOf w).wellFormed fmt = true := by
  constructor
  · rintro ⟨i, hdec⟩
    obtain ⟨fmt, mk, hrow, hwf, -⟩ := decodeFields_ok hdec
    exact ⟨fmt, by simp [formatAt, hrow], hwf⟩
  · rintro ⟨fmt, hfmt, hwf⟩
    obtain ⟨⟨_, mk⟩, hrow, rfl⟩ := Option.map_eq_some_iff.mp hfmt
    exact ⟨_, decode_eq_ok_iff.mpr (encode_of_opcodeRow hrow hwf)⟩

/-! ### The rows of the table (R61) -/

theorem wordOf_injective : Function.Injective wordOf := Function.LeftInverse.injective fieldsOf_wordOf

theorem wordOf_and (f g : Fields) :
    wordOf f &&& wordOf g = wordOf ⟨f.op &&& g.op, f.a &&& g.a, f.b &&& g.b, f.z &&& g.z⟩ := by
  refine BitVec.and_append.trans ?_
  rw [BitVec.and_append, BitVec.and_append]
  rfl

/-- `OP << 24` is the word with that opcode and zero elsewhere. -/
theorem zeroExtend_shiftLeft_eq_wordOf (op : Byte) : op.zeroExtend 32 <<< 24 = wordOf ⟨op, 0#8, 0#8, 0#8⟩ := by
  revert op
  decide

/-- A word under a format's mask is `OP << 24` exactly when it has that opcode and no reserved bit set. -/
theorem and_maskOf_eq_iff {w : CmdWord} {fmt : Format} {op : Byte} :
    w &&& maskOf fmt = op.zeroExtend 32 <<< 24 ↔ (fieldsOf w).op = op ∧ (fieldsOf w).wellFormed fmt = true := by
  have hmask : maskOf fmt = wordOf ⟨0xFF#8, if fmt = .n then 0xFF#8 else 0x00#8, if fmt = .ab then 0x00#8 else 0xFF#8,
      0xFF#8⟩ := by
    cases fmt <;> rfl
  have hones (x : Byte) : x &&& 0xFF#8 = x := BitVec.and_allOnes
  nth_rw 1 [← wordOf_fieldsOf w]
  rw [hmask, wordOf_and, zeroExtend_shiftLeft_eq_wordOf, wordOf_injective.eq_iff, Fields.mk.injEq]
  cases fmt <;> simp [Fields.wellFormed, hones, and_comm]

/-- The opcode of a row. -/
def TableRow.op (row : TableRow) : Byte := (fieldsOf row.pattern).op

/-- Each row of the table is the one that R61 makes of its opcode and the opcode's format. -/
theorem row_eq_of_mem_opcodeTable : ∀ row ∈ opcodeTable,
    row.mask = maskOf row.fmt ∧ row.pattern = row.op.zeroExtend 32 <<< 24 ∧ formatAt row.op = some row.fmt := by
  decide

/-- No opcode has two rows. -/
theorem nodup_map_op_opcodeTable : (opcodeTable.map TableRow.op).Nodup := by decide

theorem row_eq_of_op_eq {row row' : TableRow} (hrow : row ∈ opcodeTable) (hrow' : row' ∈ opcodeTable)
    (hop : row.op = row'.op) : row = row' :=
  List.inj_on_of_nodup_map nodup_map_op_opcodeTable hrow hrow' hop

theorem and_mask_eq_pattern_iff {row : TableRow} (hrow : row ∈ opcodeTable) (w : CmdWord) :
    w &&& row.mask = row.pattern ↔ (fieldsOf w).op = row.op ∧ (fieldsOf w).wellFormed row.fmt = true := by
  obtain ⟨hmask, hpattern, -⟩ := row_eq_of_mem_opcodeTable row hrow
  rw [hmask, hpattern, and_maskOf_eq_iff]

/-- The row of a command (R65). -/
def rowOf (i : Instr) : TableRow :=
  ⟨mnemonicOf i, formatOf i, wordOf ⟨(encodeFields i).op, 0#8, 0#8, 0#8⟩, maskOf (formatOf i)⟩

theorem rowOf_mem_opcodeTable (i : Instr) : rowOf i ∈ opcodeTable := by
  cases i <;> simp only [rowOf, mnemonicOf, formatOf, encodeFields] <;> decide

theorem rowOf_op (i : Instr) : (rowOf i).op = (encodeFields i).op := by
  simp [rowOf, TableRow.op]

theorem encode_and_mask_rowOf (i : Instr) : encode i &&& (rowOf i).mask = (rowOf i).pattern := by
  rw [and_mask_eq_pattern_iff (rowOf_mem_opcodeTable i), rowOf_op, fieldsOf_encode]
  exact ⟨rfl, i.wellFormed_eq_true⟩

theorem exists_decode_ok_iff_row {w : CmdWord} :
    (∃ i, decode w = .ok i) ↔ ∃ row ∈ opcodeTable, w &&& row.mask = row.pattern := by
  constructor
  · rintro ⟨i, hdec⟩
    obtain rfl := decode_eq_ok_iff.mp hdec
    exact ⟨rowOf i, rowOf_mem_opcodeTable i, encode_and_mask_rowOf i⟩
  · rintro ⟨row, hrow, hmatch⟩
    obtain ⟨hop, hwf⟩ := (and_mask_eq_pattern_iff hrow w).mp hmatch
    obtain ⟨-, -, hfmt⟩ := row_eq_of_mem_opcodeTable row hrow
    exact exists_decode_ok_iff.mpr ⟨row.fmt, hop ▸ hfmt, hwf⟩

/-- Settles O4: the row that a legal word matches is the one of its opcode. -/
theorem decodesExactlyTableRows : Obligations.DecodesExactlyTableRows := by
  refine ⟨fun w => exists_decode_ok_iff_row, ?exclusive, ?row, ?shape⟩
  case exclusive =>
    intro w row row' hrow hrow' hmatch hmatch'
    obtain ⟨hop, -⟩ := (and_mask_eq_pattern_iff hrow w).mp hmatch
    obtain ⟨hop', -⟩ := (and_mask_eq_pattern_iff hrow' w).mp hmatch'
    exact row_eq_of_op_eq hrow hrow' (hop.symm.trans hop')
  case row =>
    intro w i hdec
    obtain rfl := decode_eq_ok_iff.mp hdec
    exact ⟨rowOf i, rowOf_mem_opcodeTable i, rfl, rfl, encode_and_mask_rowOf i⟩
  case shape =>
    intro row hrow
    obtain ⟨hmask, hpattern, -⟩ := row_eq_of_mem_opcodeTable row hrow
    exact ⟨hmask, row.op, hpattern⟩

/-! ### The words that are no command (R69) -/

theorem formatAt_eq_none_iff (op : Byte) : formatAt op = none ↔
    op.toNat = 0x00 ∨ (0x08 ≤ op.toNat ∧ op.toNat ≤ 0x0F) ∨ (0x1A ≤ op.toNat ∧ op.toNat ≤ 0x1F) ∨
      (0x23 ≤ op.toNat ∧ op.toNat ≤ 0x2F) ∨ 0x31 ≤ op.toNat := by
  revert op
  decide

theorem formatAt_eq_a_iff (op : Byte) :
    formatAt op = some .a ↔ op.toNat ∈ [0x04, 0x07, 0x10, 0x12, 0x13, 0x16, 0x17, 0x20, 0x22] := by
  revert op
  decide

theorem formatAt_eq_n_iff (op : Byte) : formatAt op = some .n ↔ op.toNat ∈ [0x18, 0x19, 0x21, 0x30] := by
  revert op
  decide

/-- A word is refused for its opcode, or for a bit in a field that its opcode's format reserves. -/
theorem exists_decode_error_iff {w : CmdWord} : (∃ e, decode w = .error e) ↔
    formatAt (fieldsOf w).op = none ∨ (fieldsOf w).z ≠ 0x00#8 ∨
      (formatAt (fieldsOf w).op = some .a ∧ (fieldsOf w).b ≠ 0x00#8) ∨
      (formatAt (fieldsOf w).op = some .n ∧ ((fieldsOf w).a ≠ 0x00#8 ∨ (fieldsOf w).b ≠ 0x00#8)) := by
  have hnot : (∃ e, decode w = .error e) ↔ ¬∃ i, decode w = .ok i := by cases decode w <;> simp
  rw [hnot, exists_decode_ok_iff]
  cases formatAt (fieldsOf w).op with
  | none => simp
  | some fmt => cases fmt <;> simp [Fields.wellFormed] <;> tauto

theorem step_of_illegal {s : Machine.State} {w : CmdWord} {e : IllegalWord} (hrst : s.rst = false)
    (hready : s.ready = true) (hrsp : s.rsp = none) (hcmd : s.cmd = some w) (hdec : decode w = .error e) :
    Machine.step s = .next s.raiseIllegal := by
  rw [Machine.step_of_cmd hrst hready hrsp hcmd, Machine.executed_of_error hdec]

/-- Settles O5: the refused opcodes and fields are R69's, and the step on an illegal word is `raise IllegalCommand`. -/
theorem illegalWordsExactly : Obligations.IllegalWordsExactly := by
  refine ⟨fun w => ?illegal, ⟨.unknownOpcode, rfl⟩, ⟨.unknownOpcode, rfl⟩, ?step⟩
  case illegal =>
    rw [exists_decode_error_iff, formatAt_eq_none_iff, formatAt_eq_a_iff, formatAt_eq_n_iff]
    simp only [or_assoc, fieldsOf]
  case step =>
    rintro s w hrst hready hrsp hcmd ⟨e, hdec⟩
    exact step_of_illegal hrst hready hrsp hcmd hdec

/-! ### How many words are legal (95_test_vectors.md section 2.9) -/

/-- The operands `(A, B)` that a format leaves free: a reserved field has zero alone. -/
def Format.operands : Format → Finset (Byte × Byte)
  | .ab => Finset.univ
  | .a => Finset.univ ×ˢ {0x00#8}
  | .n => {(0x00#8, 0x00#8)}

theorem Fields.wellFormed_iff {f : Fields} {fmt : Format} :
    f.wellFormed fmt = true ↔ f.z = 0x00#8 ∧ (f.a, f.b) ∈ fmt.operands := by
  cases fmt <;> simp only [Fields.wellFormed, Format.operands, Bool.and_eq_true, beq_iff_eq, Finset.mem_univ,
    Finset.mem_product, Finset.mem_singleton, Prod.mk.injEq, true_and, and_true, and_assoc, @and_comm (f.b = 0x00#8)]

theorem card_byte : Fintype.card Byte = 256 :=
  (FinEnum.card_eq_fintypeCard).symm

/-- How many operands a format leaves free. -/
def Format.operandCount : Format → Nat
  | .ab => 65536
  | .a => 256
  | .n => 1

theorem Format.card_operands (fmt : Format) : fmt.operands.card = fmt.operandCount := by
  cases fmt
  · simp only [Format.operands, Finset.card_univ, Fintype.card_prod, card_byte, Format.operandCount]
  · simp only [Format.operands, Finset.card_product, Finset.card_univ, Finset.card_singleton, card_byte,
      Format.operandCount]
  · rfl

/-- The rows of the table, each with the operands that its format leaves free. -/
@[irreducible] def rowOperands : Finset (Σ _ : TableRow, Byte × Byte) :=
  opcodeTable.toFinset.sigma fun row => row.fmt.operands

/-- The word of a row and two operands. -/
def rowWord (p : Σ _ : TableRow, Byte × Byte) : CmdWord := wordOf ⟨p.1.op, p.2.1, p.2.2, 0x00#8⟩

theorem mem_rowOperands {p : Σ _ : TableRow, Byte × Byte} :
    p ∈ rowOperands ↔ p.1 ∈ opcodeTable ∧ p.2 ∈ p.1.fmt.operands := by
  unfold rowOperands
  rw [Finset.mem_sigma, List.mem_toFinset]

theorem injOn_rowWord : Set.InjOn rowWord rowOperands := by
  rintro ⟨row, a, b⟩ hp ⟨row', a', b'⟩ hp' heq
  obtain ⟨hop, ha, hb, -⟩ := Fields.mk.inj (wordOf_injective heq)
  obtain rfl : row = row' := row_eq_of_op_eq (mem_rowOperands.mp hp).1 (mem_rowOperands.mp hp').1 hop
  exact congrArg (Sigma.mk row) (Prod.ext ha hb)

/-- The legal words are the words of the rows and the operands that each leaves free. -/
theorem setOf_legal_eq_image : { w : CmdWord | ∃ i, decode w = .ok i } = rowOperands.image rowWord := by
  ext w
  simp only [Set.mem_ofPred_eq, exists_decode_ok_iff_row, Finset.coe_image, Set.mem_image, Finset.mem_coe,
    mem_rowOperands]
  constructor
  · rintro ⟨row, hrow, hmatch⟩
    obtain ⟨hop, hwf⟩ := (and_mask_eq_pattern_iff hrow w).mp hmatch
    obtain ⟨hz, hoperands⟩ := Fields.wellFormed_iff.mp hwf
    refine ⟨⟨row, (fieldsOf w).a, (fieldsOf w).b⟩, ⟨hrow, hoperands⟩, ?_⟩
    rw [rowWord, ← hop, ← hz, wordOf_fieldsOf]
  · rintro ⟨⟨row, a, b⟩, ⟨hrow, hoperands⟩, rfl⟩
    refine ⟨row, hrow, (and_mask_eq_pattern_iff hrow _).mpr ?_⟩
    rw [rowWord, fieldsOf_wordOf, Fields.wellFormed_iff]
    exact ⟨rfl, rfl, hoperands⟩

/-- Settles O57: 8 rows leave two operands free, 9 leave one and 4 leave none. -/
theorem legalWordCount : Obligations.LegalWordCount := by
  have hnodup : opcodeTable.Nodup := nodup_map_op_opcodeTable.of_map
  calc Nat.card { w : CmdWord // ∃ i, decode w = .ok i }
      = { w : CmdWord | ∃ i, decode w = .ok i }.ncard := Nat.card_coe_set_eq _
    _ = rowOperands.card := by
      rw [setOf_legal_eq_image, Set.ncard_coe_finset, Finset.card_image_of_injOn injOn_rowWord]
    _ = (opcodeTable.map fun row => row.fmt.operands.card).sum := by
      unfold rowOperands
      rw [Finset.card_sigma, List.sum_toFinset _ hnodup]
    _ = 526596 := by
      simp only [Format.card_operands]
      rfl

/-- Settles O1: each of the 21 words is run through the decoder. -/
theorem specWordsDecode : Obligations.SpecWordsDecode := by
  unfold Obligations.SpecWordsDecode
  exact ⟨rfl, rfl, rfl, rfl, rfl, rfl, rfl, rfl, rfl, rfl, rfl, rfl, rfl, rfl, rfl, rfl, rfl, rfl, rfl, rfl, rfl⟩

end Sys2Proof
end

section
/-! The pseudo-commands (30_encoding.md R72): a run of loads writes the listed bytes, and nothing else. -/

namespace Sys2Proof.Machine

/-- `t` is `s` with the bytes `vs` at the entries of one space from `i` on, up to the pending words and the memories'
form: every other entry, DEG, NS and STATUS are those of `s`. -/
structure State.Loaded (S : Space) (i : Nat) (vs : List Byte) (s t : State) : Prop where
  deg : t.deg = s.deg
  ns : t.ns = s.ns
  status : t.status = s.status
  memRead (S' : Space) (j : Nat) :
    t.memRead S' j = if S' = S ∧ i ≤ j then (vs[j - i]?).getD (s.memRead S' j) else s.memRead S' j

namespace State.Loaded

variable {S : Space} {i : Nat} {v : Byte} {vs : List Byte} {s t u : State}

theorem nil : s.Loaded S i [] s := ⟨rfl, rfl, rfl, by simp⟩

/-- One byte at an entry, then the rest from the next entry on. -/
theorem cons (hfirst : s.Loaded S i [v] u) (hrest : u.Loaded S (i + 1) vs t) : s.Loaded S i (v :: vs) t := by
  refine ⟨hrest.deg.trans hfirst.deg, hrest.ns.trans hfirst.ns, hrest.status.trans hfirst.status, fun S' j => ?_⟩
  rw [hrest.memRead, hfirst.memRead]
  by_cases hS : S' = S
  · obtain hlt | rfl | hgt := Nat.lt_trichotomy j i
    · simp [hS, show ¬i ≤ j by omega, show ¬i + 1 ≤ j by omega]
    · simp [hS]
    · obtain ⟨d, rfl⟩ : ∃ d, j = i + 1 + d := ⟨j - (i + 1), by omega⟩
      simp [hS, show i + 1 + d - i = d + 1 by omega, show i ≤ i + 1 + d by omega]
  · simp [hS]

/-- A run from entry 0 leaves each byte at its index. -/
theorem memRead_of_getElem? (h : s.Loaded S 0 vs t) {k : Nat} (hk : vs[k]? = some v) : t.memRead S k = v := by
  simp [h.memRead, hk]

/-- A run from entry 0 leaves the other spaces and the entries past its end. -/
theorem memRead_of_other (h : s.Loaded S 0 vs t) {S' : Space} {k : Nat} (hk : S' ≠ S ∨ vs.length ≤ k) :
    t.memRead S' k = s.memRead S' k := by
  rw [h.memRead]
  rcases hk with hS | hlen
  · simp [hS]
  · simp [List.getElem?_eq_none hlen]

end State.Loaded

/-! ### The load commands (41_polymem.md R101, R104, R105) -/

/-- `mk` makes the load commands of a space. -/
def LoadsInto (S : Space) (mk : Byte → Byte → Instr) : Prop :=
  ∀ (k v : Byte) (s : State), ∃ t, exec (mk k v) s = .next t ∧ s.Loaded S k.toNat [v] t

/-- A run of one byte is one entry. -/
theorem ite_getElem?_singleton (p : Prop) [Decidable p] (j k : Nat) (v w : Byte) :
    (if p ∧ k ≤ j then ([v][j - k]?).getD w else w) = if p ∧ j = k then v else w := by
  obtain hlt | rfl | hgt := Nat.lt_trichotomy j k
  · simp [hlt.ne, hlt.not_ge]
  · simp
  · have hnone : [v][j - k]? = none := List.getElem?_eq_none (by simp only [List.length_singleton]; omega)
    simp [hnone, hgt.ne']

theorem loadsInto_ldc : LoadsInto .coef .ldc := fun k v s =>
  ⟨_, rfl, rfl, rfl, rfl, fun S' j => by
    rw [ite_getElem?_singleton]
    exact s.memRead_writeCoef k.toNat v S' j⟩

theorem loadsInto_ldx : LoadsInto .xs .ldx := fun k v s =>
  ⟨_, rfl, rfl, rfl, rfl, fun S' j => by
    rw [ite_getElem?_singleton]
    exact s.memRead_writeXs k.toNat v S' j⟩

theorem loadsInto_ldy : LoadsInto .ys .ldy := fun k v s =>
  ⟨_, rfl, rfl, rfl, rfl, fun S' j => by
    rw [ite_getElem?_singleton]
    exact s.memRead_writeYs k.toNat v S' j⟩

/-! ### Runs of loads -/

theorem execAll_cons_of_exec {i : Instr} {s t : State} (hexec : exec i s = .next t) (is : List Instr) :
    execAll (i :: is) s = execAll is t := by
  simp only [execAll, hexec]

/-- A run of loads inside the memory's depth completes, and loads its bytes. -/
theorem exists_execAll_loadRun {S : Space} {mk : Byte → Byte → Instr} (hmk : LoadsInto S mk) (vs : List Byte) (i : Nat)
    (s : State) (hlen : i + vs.length ≤ 256) : ∃ t, execAll (loadRun mk i vs) s = some t ∧ s.Loaded S i vs t := by
  induction vs generalizing i s with
  | nil => exact ⟨s, rfl, .nil⟩
  | cons v vs ih =>
    rw [List.length_cons] at hlen
    obtain ⟨u, hexec, hfirst⟩ := hmk (BitVec.ofNat 8 i) v s
    rw [BitVec.toNat_ofNat, Nat.mod_eq_of_lt (by omega)] at hfirst
    obtain ⟨t, hrun, hrest⟩ := ih (i + 1) u (by omega)
    exact ⟨t, (execAll_cons_of_exec hexec _).trans hrun, hfirst.cons hrest⟩

/-- Settles O8: each expansion sets its register, then is a run of loads. -/
theorem pseudoCommandsLoad : Obligations.PseudoCommandsLoad := by
  refine ⟨rfl, ?ldpoly, ?ldxs, ?ldys⟩
  case ldpoly =>
    intro cs s hpos hlen
    have hset : exec (.setdeg (BitVec.ofNat 8 (cs.length - 1))) s =
        .next (s.setDeg (BitVec.ofNat 8 (cs.length - 1))).respondDone := rfl
    obtain ⟨t, hrun, hloaded⟩ := exists_execAll_loadRun loadsInto_ldc cs 0 (s.setDeg _).respondDone (by omega)
    refine ⟨_, t, if_pos ⟨hpos, hlen⟩, (execAll_cons_of_exec hset _).trans hrun, ?_, hloaded.ns, hloaded.status,
      fun k v => hloaded.memRead_of_getElem?, fun S k hk => (hloaded.memRead_of_other hk).trans ?_⟩
    · rw [hloaded.deg]
      exact Nat.mod_eq_of_lt (by omega)
    · simp
  case ldxs =>
    intro xs s hlen
    have hset : exec (.setns (BitVec.ofNat 8 xs.length)) s =
        .next (s.setNs (BitVec.ofNat 8 xs.length)).respondDone := rfl
    obtain ⟨t, hrun, hloaded⟩ := exists_execAll_loadRun loadsInto_ldx xs 0 (s.setNs _).respondDone (by omega)
    refine ⟨_, t, if_pos hlen, (execAll_cons_of_exec hset _).trans hrun, ?_, hloaded.deg, hloaded.status,
      fun k v => hloaded.memRead_of_getElem?, fun S k hk => (hloaded.memRead_of_other hk).trans ?_⟩
    · rw [hloaded.ns]
      exact Nat.mod_eq_of_lt (by omega)
    · simp
  case ldys =>
    intro ys s hlen
    obtain ⟨t, hrun, hloaded⟩ := exists_execAll_loadRun loadsInto_ldy ys 0 s (by omega)
    exact ⟨_, t, if_pos hlen, hrun, hloaded.ns, hloaded.deg, hloaded.status,
      fun k v => hloaded.memRead_of_getElem?, fun S k => hloaded.memRead_of_other⟩

end Sys2Proof.Machine
end

section
/-! Assembler text (30_encoding.md R71, R73): a command's line stands for that command alone, and reading the text of a
line gives the line. -/

namespace Sys2Proof.Machine

/-! ### Lines and commands -/

theorem operandByte_eq_some_iff {n : Nat} {b : Byte} : operandByte n = some b ↔ n = b.toNat := by
  have hb : b.toNat < 256 := b.isLt
  constructor
  · intro h
    obtain ⟨hn, hb'⟩ := Option.ite_none_right_eq_some.mp h
    rw [← Option.some.inj hb', BitVec.toNat_ofNat, Nat.mod_eq_of_lt (by omega)]
  · rintro rfl
    rw [operandByte, if_pos (by omega), BitVec.ofNat_toNat, BitVec.setWidth_eq]

/-- The operands of a line are bytes exactly when they are the values of those bytes. -/
theorem operandBytes_eq_some_iff {ns : List Nat} {bs : List Byte} :
    operandBytes ns = some bs ↔ ns = bs.map BitVec.toNat := by
  induction ns generalizing bs with
  | nil => cases bs <;> simp [operandBytes]
  | cons n ns ih =>
    cases bs with
    | nil =>
      simp only [operandBytes, List.map_nil, reduceCtorEq, iff_false]
      split <;> simp
    | cons b bs =>
      rw [List.map_cons, List.cons.injEq, ← operandByte_eq_some_iff, ← ih, operandBytes]
      split <;> simp_all

/-- A mnemonic is a word without blanks and `;`. -/
theorem asmNames_chars : ∀ row ∈ asmNames, row.1 ≠ [] ∧ ∀ c ∈ row.1, isBlank c = false ∧ c ≠ ';' := by
  simp [asmNames, isBlank]

theorem opcodeNamed_eq_some_iff {name : List Char} {op : Byte} :
    opcodeNamed name = some op ↔ (name, op) ∈ asmNames := by
  constructor
  · intro h
    obtain ⟨⟨name', _⟩, hfind, rfl⟩ := Option.map_eq_some_iff.mp h
    obtain rfl : name' = name := by simpa using List.find?_some hfind
    exact List.mem_of_find?_eq_some hfind
  · have hrows : ∀ row ∈ asmNames, opcodeNamed row.1 = some row.2 := by decide
    exact hrows (name, op)

theorem nameOfOpcode_of_mem {name : List Char} {op : Byte} (h : (name, op) ∈ asmNames) :
    nameOfOpcode op = some name := by
  have hrows : ∀ row ∈ asmNames, nameOfOpcode row.2 = some row.1 := by decide
  exact hrows (name, op) h

/-- The mnemonic of a command, as the assembler writes it. -/
def asmNameOf (i : Instr) : List Char := (nameOfOpcode (encodeFields i).op).getD []

theorem mem_asmNames (i : Instr) : (asmNameOf i, (encodeFields i).op) ∈ asmNames := by
  cases i <;> simp only [asmNameOf, encodeFields] <;> decide

/-- The operand bytes that a command's format uses (R61). -/
def operandsOf (i : Instr) : List Byte :=
  match formatOf i with
  | .ab => [(encodeFields i).a, (encodeFields i).b]
  | .a => [(encodeFields i).a]
  | .n => []

theorem lineOf_eq (i : Instr) : lineOf i = ⟨asmNameOf i, (operandsOf i).map BitVec.toNat⟩ := by
  rw [lineOf, operandsOf, asmNameOf]
  cases formatOf i <;> rfl

/-- Everything a line can stand for: a listed mnemonic, and as many operand bytes as its format uses. -/
theorem of_commandOfLine {l : AsmLine} {i : Instr} (h : commandOfLine l = some i) :
    opcodeNamed l.name = some (encodeFields i).op ∧ operandBytes l.operands = some (operandsOf i) := by
  unfold commandOfLine at h
  split at h
  next op bs hop hbs =>
    rw [hop, hbs]
    split at h <;> try contradiction
    all_goals
      rename_i mk _ hrow
      cases h
      rw [operandsOf]
      obtain ⟨hfmt, hfields⟩ := encodeFields_of_opcodeRow hrow _ _ 0x00#8
      rw [hfmt, hfields]
      exact ⟨rfl, rfl⟩
  next => contradiction

theorem commandOfLine_lineOf (i : Instr) : commandOfLine (lineOf i) = some i := by
  obtain ⟨mk, hrow, hmk⟩ := opcodeRow_encodeFields i
  have hwf := i.wellFormed_eq_true
  simp only [commandOfLine, lineOf_eq, opcodeNamed_eq_some_iff.mpr (mem_asmNames i),
    operandBytes_eq_some_iff.mpr (Eq.refl _), hrow, operandsOf]
  cases hfmt : formatOf i <;> simp_all [Instr.wellFormed, Fields.wellFormed]

/-- A command's line is the only line that stands for it. -/
theorem commandOfLine_eq_some_iff {l : AsmLine} {i : Instr} : commandOfLine l = some i ↔ l = lineOf i := by
  constructor
  · intro h
    obtain ⟨hop, hoperands⟩ := of_commandOfLine h
    rw [lineOf_eq, asmNameOf, nameOfOpcode_of_mem (opcodeNamed_eq_some_iff.mp hop),
      ← operandBytes_eq_some_iff.mp hoperands]
    rfl
  · rintro rfl
    exact commandOfLine_lineOf i

theorem assembleCommand_eq_some_iff {l : AsmLine} {w : CmdWord} :
    assembleCommand l = some w ↔ ∃ i, l = lineOf i ∧ encode i = w := by
  simp only [assembleCommand, Option.map_eq_some_iff, commandOfLine_eq_some_iff]

theorem assembleLine_lineOf (i : Instr) : assembleLine (lineOf i) = some [encode i] := by
  simp only [assembleLine, commandOfLine_lineOf]

/-! ### Digits -/

theorem hexDigit_chars : ∀ n < 16, digitValue 16 (hexDigit n) = some n ∧ isBlank (hexDigit n) = false ∧
    hexDigit n ≠ ',' ∧ hexDigit n ≠ ';' := by
  decide

/-- Two digits of a byte, read after others. -/
theorem digitsValue_hexPair_append {n : Nat} (hn : n < 256) (acc : Nat) (cs : List Char) :
    digitsValue 16 acc (hexPair n ++ cs) = digitsValue 16 (256 * acc + n) cs := by
  obtain ⟨hhigh, -⟩ := hexDigit_chars (n / 16 % 16) (Nat.mod_lt _ (by omega))
  obtain ⟨hlow, -⟩ := hexDigit_chars (n % 16) (Nat.mod_lt _ (by omega))
  have hvalue : 16 * (16 * acc + n / 16 % 16) + n % 16 = 256 * acc + n := by omega
  simp only [hexPair, List.cons_append, List.nil_append, digitsValue, hhigh, hlow, hvalue]

theorem parseNumber_hexOperand {n : Nat} (hn : n < 256) : parseNumber (hexOperand n) = some n := by
  have hdigits := digitsValue_hexPair_append hn 0 []
  rw [List.append_nil, Nat.mul_zero, Nat.zero_add] at hdigits
  exact hdigits

theorem of_mem_hexOperand {n : Nat} {c : Char} (hc : c ∈ hexOperand n) : isBlank c = false ∧ c ≠ ',' ∧ c ≠ ';' := by
  simp only [hexOperand, hexPair, List.cons_append, List.nil_append, List.mem_cons, List.not_mem_nil, or_false] at hc
  rcases hc with rfl | rfl | rfl | rfl
  · decide
  · decide
  · exact (hexDigit_chars _ (Nat.mod_lt _ (by omega))).2
  · exact (hexDigit_chars _ (Nat.mod_lt _ (by omega))).2

/-! ### Blanks -/

/-- A text that begins and ends with no blank. -/
structure Solid (cs : List Char) : Prop where
  ne_nil : cs ≠ []
  head : ∀ c ∈ cs.head?, isBlank c = false
  last : ∀ c ∈ cs.getLast?, isBlank c = false

theorem solid_of_forall_mem {cs : List Char} (hne : cs ≠ []) (hcs : ∀ c ∈ cs, isBlank c = false) : Solid cs :=
  ⟨hne, fun c hc => hcs c (List.mem_of_mem_head? hc), fun c hc => hcs c (List.mem_of_getLast? hc)⟩

theorem Solid.append {cs ds : List Char} (hcs : Solid cs) (hds : Solid ds) (mid : List Char) :
    Solid (cs ++ mid ++ ds) := by
  refine ⟨by simp [hcs.ne_nil], fun c hc => hcs.head c ?_, fun c hc => hds.last c ?_⟩
  · rwa [List.append_assoc, List.head?_append_of_ne_nil _ hcs.ne_nil] at hc
  · rwa [List.getLast?_append_of_ne_nil _ hds.ne_nil] at hc

theorem Solid.trim_eq {cs : List Char} (h : Solid cs) : trim cs = cs := by
  have hhead : cs.dropWhile isBlank = cs := by
    rw [List.dropWhile_eq_self_iff]
    intro hl
    rw [h.head cs[0] (List.head?_eq_getElem? ▸ List.getElem?_eq_getElem hl)]
    exact Bool.false_ne_true
  have hlast : cs.rdropWhile isBlank = cs := by
    rw [List.rdropWhile_eq_self_iff]
    intro hl
    simp [h.last _ (List.getLast?_eq_some_getLast h.ne_nil)]
  rw [trim, hhead]
  exact hlast

theorem trim_blank_cons (cs : List Char) : trim (' ' :: cs) = trim cs := rfl

theorem solid_hexOperand (n : Nat) : Solid (hexOperand n) :=
  solid_of_forall_mem (List.cons_ne_nil _ _) fun _ hc => (of_mem_hexOperand hc).1

/-! ### Operands, written and read -/

theorem splitCommas_ne_nil (cs : List Char) : splitCommas cs ≠ [] := by
  cases cs with
  | nil => simp [splitCommas]
  | cons c cs =>
    rw [splitCommas]
    split
    · simp
    · split <;> simp

theorem splitCommas_of_no_comma {cs : List Char} (h : ∀ c ∈ cs, c ≠ ',') : splitCommas cs = [cs] := by
  induction cs with
  | nil => rfl
  | cons c cs ih => simp [splitCommas, h c, ih fun d hd => h d (List.mem_cons_of_mem _ hd)]

theorem splitCommas_append_comma {cs : List Char} (h : ∀ c ∈ cs, c ≠ ',') (ds : List Char) :
    splitCommas (cs ++ ',' :: ds) = cs :: splitCommas ds := by
  induction cs with
  | nil => rfl
  | cons c cs ih => simp [splitCommas, h c, ih fun d hd => h d (List.mem_cons_of_mem _ hd)]

/-- A blank before the operands is no part of them. -/
theorem parseNumbers_splitCommas_blank_cons (cs : List Char) :
    parseNumbers (splitCommas (' ' :: cs)) = parseNumbers (splitCommas cs) := by
  obtain ⟨part, parts, hparts⟩ := List.exists_cons_of_ne_nil (splitCommas_ne_nil cs)
  simp [splitCommas, hparts, parseNumbers, trim_blank_cons]

theorem parseNumbers_hexOperand_cons {n : Nat} (hn : n < 256) (ps : List (List Char)) :
    parseNumbers (hexOperand n :: ps) = (parseNumbers ps).map (n :: ·) := by
  rw [parseNumbers, (solid_hexOperand n).trim_eq, parseNumber_hexOperand hn]
  cases parseNumbers ps <;> rfl

/-- The text of one operand and more is solid, and the assembler reads the operands from it. -/
theorem operandText_cons (n : Nat) (ns : List Nat) (hle : ∀ m ∈ n :: ns, m < 256) :
    Solid (operandText (n :: ns)) ∧ parseNumbers (splitCommas (operandText (n :: ns))) = some (n :: ns) := by
  have hcomma (c : Char) (hc : c ∈ hexOperand n) : c ≠ ',' := (of_mem_hexOperand hc).2.1
  have hn : n < 256 := hle n List.mem_cons_self
  induction ns generalizing n with
  | nil =>
    rw [operandText, splitCommas_of_no_comma hcomma, parseNumbers_hexOperand_cons hn]
    exact ⟨solid_hexOperand n, rfl⟩
  | cons m ns ih =>
    obtain ⟨hsolid, hparse⟩ := ih m (fun k hk => hle k (List.mem_cons_of_mem _ hk))
      (fun c hc => (of_mem_hexOperand hc).2.1) (hle m (by simp))
    refine ⟨(solid_hexOperand n).append hsolid _, ?_⟩
    rw [operandText, List.append_assoc, List.cons_append, splitCommas_append_comma hcomma,
      parseNumbers_hexOperand_cons hn, List.cons_append, List.nil_append, parseNumbers_splitCommas_blank_cons, hparse]
    rfl

theorem ne_semicolon_of_mem_operandText {ns : List Nat} {c : Char} (hc : c ∈ operandText ns) : c ≠ ';' := by
  induction ns using operandText.induct with
  | case1 => cases hc
  | case2 n => exact (of_mem_hexOperand hc).2.2
  | case3 n m ns ih =>
    simp only [operandText, List.mem_append] at hc
    rcases hc with (hc | hc) | hc
    · exact (of_mem_hexOperand hc).2.2
    · rintro rfl
      exact absurd hc (by decide)
    · exact ih hc

/-! ### Lines, written and read -/

/-- What the text of a line needs to be read back: a mnemonic of one word, and operands that are bytes. -/
structure AsmLine.Readable (l : AsmLine) : Prop where
  name_ne_nil : l.name ≠ []
  of_mem_name : ∀ c ∈ l.name, isBlank c = false ∧ c ≠ ';'
  operands_lt : ∀ n ∈ l.operands, n < 256

theorem readable_lineOf (i : Instr) : (lineOf i).Readable := by
  obtain ⟨hne, hchars⟩ := asmNames_chars _ (mem_asmNames i)
  rw [lineOf_eq]
  refine ⟨hne, hchars, fun n hn => ?_⟩
  obtain ⟨b, -, rfl⟩ := List.mem_map.mp hn
  exact b.isLt

theorem solid_lineText {l : AsmLine} (h : l.Readable) : Solid (lineText l) := by
  have hname : Solid l.name := solid_of_forall_mem h.name_ne_nil fun c hc => (h.of_mem_name c hc).1
  obtain ⟨name, _ | ⟨n, ns⟩⟩ := l
  · exact hname
  · exact hname.append (operandText_cons n ns h.operands_lt).1 _

/-- A written line holds no comment, and no blank at its ends. -/
theorem trim_stripComment_lineText {l : AsmLine} (h : l.Readable) : trim (stripComment (lineText l)) = lineText l := by
  have hstrip : stripComment (lineText l) = lineText l := by
    rw [stripComment, List.takeWhile_eq_self_iff]
    intro c hc
    rw [bne_iff_ne]
    rw [lineText] at hc
    split at hc
    · exact (h.of_mem_name c hc).2
    · simp only [List.mem_append, List.mem_singleton] at hc
      rcases hc with (hc | rfl) | hc
      · exact (h.of_mem_name c hc).2
      · decide
      · exact ne_semicolon_of_mem_operandText hc
  rw [hstrip, (solid_lineText h).trim_eq]

/-- The mnemonic ends at the first blank. -/
theorem takeWhile_dropWhile_name {name : List Char} (h : ∀ c ∈ name, isBlank c = false) (cs : List Char) :
    (name ++ ' ' :: cs).takeWhile (fun c => !isBlank c) = name ∧
      (name ++ ' ' :: cs).dropWhile (fun c => !isBlank c) = ' ' :: cs := by
  have hall : ∀ c ∈ name, (!isBlank c) = true := fun c hc => by rw [h c hc]; rfl
  rw [List.takeWhile_append_of_pos hall, List.dropWhile_append_of_pos hall]
  exact ⟨List.append_nil name, rfl⟩

theorem parseLine_lineText {l : AsmLine} (h : l.Readable) : parseLine (lineText l) = some l := by
  have hbody := trim_stripComment_lineText h
  obtain ⟨name, _ | ⟨n, ns⟩⟩ := l
  · have hall : ∀ c ∈ name, (!isBlank c) = true := fun c hc => by rw [(h.of_mem_name c hc).1]; rfl
    have htake : name.takeWhile (fun c => !isBlank c) = name := List.takeWhile_eq_self_iff.mpr hall
    have hdrop : name.dropWhile (fun c => !isBlank c) = [] := List.dropWhile_eq_nil_iff.mpr hall
    simp only [parseLine, hbody]
    simp [lineText, htake, hdrop, h.name_ne_nil, trim]
  · obtain ⟨hsolid, hparse⟩ := operandText_cons n ns h.operands_lt
    obtain ⟨htake, hdrop⟩ := takeWhile_dropWhile_name (fun c hc => (h.of_mem_name c hc).1) (operandText (n :: ns))
    simp only [parseLine, hbody]
    simp [lineText, htake, hdrop, h.name_ne_nil, trim_blank_cons, hsolid.trim_eq, hsolid.ne_nil, hparse]

theorem assembleText_lineText {l : AsmLine} (h : l.Readable) : assembleText (lineText l) = assembleLine l := by
  rw [assembleText, trim_stripComment_lineText h, if_neg (solid_lineText h).ne_nil, parseLine_lineText h]

/-! ### Disassembly -/

theorem disassemble_of_ok {w : CmdWord} {i : Instr} (h : decode w = .ok i) : disassemble w = lineText (lineOf i) := by
  simp only [disassemble, h]

/-- The eight digits of a word. -/
def hexWord (w : CmdWord) : List Char :=
  hexPair (fieldsOf w).op.toNat ++ hexPair (fieldsOf w).a.toNat ++ hexPair (fieldsOf w).b.toNat ++
    hexPair (fieldsOf w).z.toNat

theorem disassemble_of_error {w : CmdWord} {e : IllegalWord} (h : decode w = .error e) :
    disassemble w = ['.', 'w', 'o', 'r', 'd', ' ', '0', 'x'] ++ hexWord w := by
  simp only [disassemble, h, hexWord, List.append_assoc]

/-- A word's value is that of its bytes in base 256, the opcode first (R60). -/
theorem toNat_eq_fields (w : CmdWord) : w.toNat = 256 * (256 * (256 * (fieldsOf w).op.toNat + (fieldsOf w).a.toNat) +
    (fieldsOf w).b.toNat) + (fieldsOf w).z.toNat := by
  have hw : w.toNat < 2 ^ 32 := w.isLt
  simp only [fieldsOf, BitVec.extractLsb'_toNat, Nat.shiftRight_eq_div_pow]
  omega

theorem digitsValue_hexWord (w : CmdWord) : digitsValue 16 0 (hexWord w) = some w.toNat := by
  have hlt (b : Byte) : b.toNat < 256 := b.isLt
  rw [hexWord, ← List.append_nil (_ ++ hexPair (fieldsOf w).z.toNat)]
  simp only [List.append_assoc, digitsValue_hexPair_append (hlt _)]
  rw [digitsValue, toNat_eq_fields, Nat.mul_zero, Nat.zero_add]

/-- Settles O7: the text of a command's line is read as that line, which is the only one that stands for the command. -/
theorem assemblerRoundTrip : Obligations.AssemblerRoundTrip := by
  refine ⟨?legal, ?illegal, ?unique⟩
  case legal =>
    intro w i hdec
    rw [disassemble_of_ok hdec, assembleText_lineText (readable_lineOf i), assembleLine_lineOf,
      decode_eq_ok_iff.mp hdec]
  case illegal =>
    intro w e hdec
    exact ⟨hexWord w, rfl, disassemble_of_error hdec, digitsValue_hexWord w⟩
  case unique =>
    intro l l' w h h'
    obtain ⟨i, rfl, hi⟩ := assembleCommand_eq_some_iff.mp h
    obtain ⟨i', rfl, hi'⟩ := assembleCommand_eq_some_iff.mp h'
    have hok : Except.ok i = Except.ok i' := (decode_eq_ok_iff.mpr hi).symm.trans (decode_eq_ok_iff.mpr hi')
    rw [Except.ok.inj hok]

end Sys2Proof.Machine
end

section
/-! The field GF(2)[x] / (x^8+x^4+x^3+x+1) behind the bytes (40_field.md R81 to R83): a byte stands for a residue class,
`gf_mulb` for the product of classes, and every non-zero byte for a power of the class of 0x03. -/

namespace Sys2Proof.Machine

open Polynomial

/-! ### The polynomial of a byte -/

/-- The polynomial of a byte: bit `i` is the coefficient of x^i (00_scope.md R6). -/
noncomputable def bitPoly (v : Byte) : (ZMod 2)[X] :=
  ∑ i ∈ Finset.range 8, if v.getLsbD i = true then (X : (ZMod 2)[X]) ^ i else 0

theorem coeff_ite_X_pow (p : Prop) [Decidable p] (i n : Nat) :
    (if p then (X : (ZMod 2)[X]) ^ i else 0).coeff n = if n = i ∧ p then 1 else 0 := by
  split <;> simp [coeff_X_pow, *]

theorem coeff_bitPoly (v : Byte) (n : Nat) : (bitPoly v).coeff n = if v.getLsbD n = true then 1 else 0 := by
  simp only [bitPoly, finsetSum_coeff, coeff_ite_X_pow, ite_and, Finset.sum_ite_eq, Finset.mem_range]
  by_cases hn : n < 8
  · rw [if_pos hn]
  · simp [hn, BitVec.getLsbD_of_ge v n (by omega)]

theorem bitPoly_injective : Function.Injective bitPoly := by
  intro a b hab
  refine BitVec.eq_of_getLsbD_eq fun i _ => ?_
  have hcoeff := congrArg (coeff · i) hab
  simp only [coeff_bitPoly] at hcoeff
  cases ha : a.getLsbD i <;> cases hb : b.getLsbD i <;> simp_all

theorem degree_bitPoly_lt (v : Byte) : (bitPoly v).degree < 8 := by
  refine (degree_lt_iff_coeff_zero _ 8).mpr fun n hn => ?_
  rw [coeff_bitPoly, BitVec.getLsbD_of_ge v n hn]
  rfl

theorem bitPoly_zero : bitPoly 0x00#8 = 0 := by simp [bitPoly]

/-- Exclusive-or is the sum (R80): the coefficients are added modulo 2. -/
theorem bitPoly_xor (a b : Byte) : bitPoly (a ^^^ b) = bitPoly a + bitPoly b := by
  ext n
  rw [coeff_add, coeff_bitPoly, coeff_bitPoly, coeff_bitPoly, BitVec.getLsbD_xor]
  cases a.getLsbD n <;> cases b.getLsbD n <;> decide

/-- A left shift multiplies by x and drops the coefficient of x^8. -/
theorem bitPoly_shiftLeft (r : Byte) :
    bitPoly (r <<< 1) + (if r.getLsbD 7 = true then X ^ 8 else 0) = X * bitPoly r := by
  ext n
  rw [coeff_add, coeff_bitPoly, coeff_ite_X_pow, BitVec.getLsbD_shiftLeft]
  cases n with
  | zero => simp
  | succ n =>
    rw [coeff_X_mul, coeff_bitPoly]
    rcases Nat.lt_trichotomy n 7 with hlt | rfl | hgt
    · simp [hlt.ne, show n + 1 < 8 by omega]
    · simp
    · simp [hgt.ne', BitVec.getLsbD_of_ge r n hgt]

/-! ### Residue classes -/

/-- x^8+x^4+x^3+x+1, the reduction polynomial (R82). -/
noncomputable def reductionPoly : (ZMod 2)[X] := X ^ 8 + X ^ 4 + X ^ 3 + X + 1

/-- POLY's low byte holds the terms of the reduction polynomial below x^8 (00_scope.md R5). -/
theorem reductionPoly_eq : reductionPoly = X ^ 8 + bitPoly Config.polyLow := by
  simp [reductionPoly, bitPoly, Config.polyLow, Finset.sum_range_succ]
  ring

theorem reductionPoly_monic : reductionPoly.Monic := by
  rw [reductionPoly_eq]
  exact monic_X_pow_add (degree_bitPoly_lt _)

theorem degree_reductionPoly : reductionPoly.degree = 8 := by
  rw [reductionPoly_eq]
  rw [degree_add_eq_left_of_degree_lt] <;> rw [degree_X_pow]
  · rfl
  · exact degree_bitPoly_lt _

/-- The residue class of a byte's polynomial, an element of GF(2)[x] / (x^8+x^4+x^3+x+1) (R82). -/
noncomputable def residue (v : Byte) : AdjoinRoot reductionPoly := AdjoinRoot.mk reductionPoly (bitPoly v)

theorem residue_zero : residue 0x00#8 = 0 := by rw [residue, bitPoly_zero, map_zero]

theorem residue_one : residue 0x01#8 = 1 := by simp [residue, bitPoly]

theorem residue_xor (a b : Byte) : residue (a ^^^ b) = residue a + residue b := by
  rw [residue, bitPoly_xor, map_add, residue, residue]

/-- Two bytes of one class are equal: their difference has a degree below 8, so it is 0. -/
theorem residue_injective : Function.Injective residue := by
  intro a b hab
  have hdvd : reductionPoly ∣ bitPoly (a ^^^ b) := by
    rw [bitPoly_xor, ← CharTwo.sub_eq_add]
    exact AdjoinRoot.mk_eq_mk.mp hab
  have hzero : bitPoly (a ^^^ b) = bitPoly 0x00#8 := by
    rw [bitPoly_zero]
    exact eq_zero_of_dvd_of_degree_lt hdvd (degree_reductionPoly ▸ degree_bitPoly_lt _)
  exact BitVec.xor_eq_zero_iff.mp (bitPoly_injective hzero)

/-- One shift of the running copy multiplies its class by that of x (R81). -/
theorem residue_xtime (r : Byte) : residue (xtime r) = AdjoinRoot.root reductionPoly * residue r := by
  have hreduce : AdjoinRoot.mk reductionPoly (X ^ 8) = residue Config.polyLow := by
    rw [residue, AdjoinRoot.mk_eq_mk, CharTwo.sub_eq_add, ← reductionPoly_eq]
  rw [← AdjoinRoot.mk_X, residue, residue, ← map_mul, ← bitPoly_shiftLeft, map_add]
  by_cases hbit : r.getLsbD 7 = true
  · rw [xtime, if_pos hbit, if_pos hbit, bitPoly_xor, map_add, hreduce, residue]
  · rw [xtime, if_neg hbit, if_neg hbit, map_zero, add_zero]

/-- The `n` bits of a byte from bit `i` on, as a polynomial. -/
noncomputable def bitsFrom (a : Byte) (i n : Nat) : (ZMod 2)[X] :=
  ∑ j ∈ Finset.range n, if a.getLsbD (i + j) = true then X ^ j else 0

theorem bitsFrom_succ (a : Byte) (i n : Nat) :
    bitsFrom a i (n + 1) = X * bitsFrom a (i + 1) n + if a.getLsbD i = true then 1 else 0 := by
  simp only [bitsFrom, Finset.sum_range_succ', Finset.mul_sum, mul_ite, mul_zero, ← pow_succ', Nat.add_zero, pow_zero,
    Nat.add_assoc, Nat.add_comm 1]

theorem bitsFrom_zero_eight (a : Byte) : bitsFrom a 0 8 = bitPoly a := by simp only [bitsFrom, bitPoly, Nat.zero_add]

/-- The loop of R81 adds to the accumulator the running copy times the remaining bits of `a`. -/
theorem residue_mulbLoop (a : Byte) (n i : Nat) (r acc : Byte) :
    residue (mulbLoop a n i r acc) = residue acc + AdjoinRoot.mk reductionPoly (bitsFrom a i n) * residue r := by
  induction n generalizing i r acc with
  | zero => simp [mulbLoop, bitsFrom]
  | succ n ih =>
    have hacc : residue (if a.getLsbD i = true then acc ^^^ r else acc) =
        residue acc + AdjoinRoot.mk reductionPoly (if a.getLsbD i = true then 1 else 0) * residue r := by
      split <;> simp [residue_xor]
    rw [mulbLoop, ih, hacc, residue_xtime, bitsFrom_succ, map_add, map_mul, AdjoinRoot.mk_X]
    ring

/-- `gf_mulb` is the product of residue classes (R82). -/
theorem residue_gfMulb (a b : Byte) : residue (gfMulb a b) = residue a * residue b := by
  rw [gfMulb, residue_mulbLoop, residue_zero, zero_add, bitsFrom_zero_eight, ← residue]

/-! ### The laws of the field (R82) -/

theorem gfMulb_comm (a b : Byte) : gfMulb a b = gfMulb b a :=
  residue_injective (by rw [residue_gfMulb, residue_gfMulb, mul_comm])

theorem gfMulb_assoc (a b c : Byte) : gfMulb (gfMulb a b) c = gfMulb a (gfMulb b c) :=
  residue_injective (by simp only [residue_gfMulb, mul_assoc])

theorem gfMulb_xor (a b c : Byte) : gfMulb a (b ^^^ c) = gfMulb a b ^^^ gfMulb a c :=
  residue_injective (by simp only [residue_gfMulb, residue_xor, mul_add])

@[simp] theorem gfMulb_zero (a : Byte) : gfMulb a 0x00#8 = 0x00#8 :=
  residue_injective (by rw [residue_gfMulb, residue_zero, mul_zero])

@[simp] theorem gfMulb_one (a : Byte) : gfMulb a 0x01#8 = a :=
  residue_injective (by rw [residue_gfMulb, residue_one, mul_one])

@[simp] theorem zero_gfMulb (a : Byte) : gfMulb 0x00#8 a = 0x00#8 := by rw [gfMulb_comm, gfMulb_zero]

/-! ### Powers (R83) -/

theorem residue_gfPower (a : Byte) (n : Nat) : residue (gfPower a n) = residue a ^ n := by
  induction n with
  | zero => rw [gfPower, residue_one, pow_zero]
  | succ n ih => rw [gfPower, residue_gfMulb, ih, pow_succ]

/-- Square-and-multiply over the `n` bits of the exponent from bit `i` on. -/
theorem residue_powLoop (e : Byte) (n i : Nat) (base res : Byte) :
    residue (powLoop e n i base res) = residue res * residue base ^ (e.toNat / 2 ^ i % 2 ^ n) := by
  induction n generalizing i base res with
  | zero => simp [powLoop, Nat.mod_one]
  | succ n ih =>
    have hbits : e.toNat / 2 ^ i % 2 ^ (n + 1) = e.toNat / 2 ^ i % 2 + 2 * (e.toNat / 2 ^ (i + 1) % 2 ^ n) := by
      rw [Nat.pow_succ', Nat.mod_mul, Nat.div_div_eq_div_mul, ← Nat.pow_succ]
    have hres : residue (if e.getLsbD i = true then gfMulb res base else res) =
        residue res * residue base ^ (e.toNat / 2 ^ i % 2) := by
      rw [BitVec.getLsbD, Nat.testBit_eq_decide_div_mod_eq]
      rcases Nat.mod_two_eq_zero_or_one (e.toNat / 2 ^ i) with hbit | hbit <;> simp [hbit, residue_gfMulb]
    rw [powLoop, ih, hres, hbits, residue_gfMulb, pow_add (residue base), pow_mul, sq, mul_assoc]

/-- All eight bits of the exponent: square-and-multiply is the power. -/
theorem powLoop_eq_gfPower (e a : Byte) : powLoop e 8 0 a 0x01#8 = gfPower a e.toNat :=
  residue_injective (by
    rw [residue_powLoop, residue_gfPower, residue_one, one_mul, Nat.pow_zero, Nat.div_one, Nat.mod_eq_of_lt e.isLt])

theorem gfPow254_eq_gfPower (a : Byte) : gfPow254 a = gfPower a 254 := powLoop_eq_gfPower Config.invExp a

theorem gfPow254_zero : gfPow254 0x00#8 = 0x00#8 := by rw [gfPow254_eq_gfPower, gfPower, gfMulb_zero]

/-! ### Every non-zero byte is a power of 0x03 -/

/-- 0x03 has order 255: its power 255 is 1, and its powers 85, 51 and 15 are not. -/
theorem orderOf_residue_three : orderOf (residue 0x03#8) = 255 := by
  have hpow (e v : Byte) (h : powLoop e 8 0 0x03#8 0x01#8 = v) : residue 0x03#8 ^ e.toNat = residue v := by
    rw [← residue_gfPower, ← powLoop_eq_gfPower, h]
  have hne (e v : Byte) (h : powLoop e 8 0 0x03#8 0x01#8 = v) (hv : v ≠ 0x01#8) : residue 0x03#8 ^ e.toNat ≠ 1 := by
    rw [hpow e v h, ← residue_one]
    exact residue_injective.ne hv
  refine orderOf_eq_of_pow_and_pow_div_prime (by decide) ?_ fun p hp hdvd => ?_
  · rw [← residue_one]
    exact hpow 255#8 0x01#8 (by decide)
  · rw [show 255 = 3 * 5 * 17 from rfl, hp.dvd_mul, hp.dvd_mul, Nat.prime_dvd_prime_iff_eq hp (by norm_num),
      Nat.prime_dvd_prime_iff_eq hp (by norm_num), Nat.prime_dvd_prime_iff_eq hp (by norm_num)] at hdvd
    rcases hdvd with (rfl | rfl) | rfl
    · exact hne 85#8 _ rfl (by decide)
    · exact hne 51#8 _ rfl (by decide)
    · exact hne 15#8 _ rfl (by decide)

theorem residue_three_pow_255 : residue 0x03#8 ^ 255 = 1 := orderOf_residue_three ▸ pow_orderOf_eq_one _

theorem gfPower_three_ne_zero (k : Nat) : gfPower 0x03#8 k ≠ 0x00#8 := by
  intro hk
  have hresidue : residue 0x03#8 ^ k = 0 := by rw [← residue_gfPower, hk, residue_zero]
  have hone : (1 : AdjoinRoot reductionPoly) = 0 := by
    rw [← one_pow k, ← residue_three_pow_255, ← pow_mul, mul_comm, pow_mul, hresidue, zero_pow (by decide)]
  rw [← residue_one, ← residue_zero] at hone
  exact absurd (residue_injective hone) (by decide)

/-- The first 255 powers of 0x03 are distinct and non-zero, and there are no more non-zero bytes than that. -/
theorem exists_gfPower_three_eq {a : Byte} (ha : a ≠ 0x00#8) : ∃ k, gfPower 0x03#8 k = a := by
  have hinj : Set.InjOn (gfPower 0x03#8) (Finset.range 255) := by
    intro j hj k hk hjk
    rw [Finset.coe_range, ← orderOf_residue_three] at hj hk
    refine pow_injOn_Iio_orderOf hj hk ?_
    simp only [← residue_gfPower, hjk]
  have hsub : (Finset.range 255).image (gfPower 0x03#8) ⊆ Finset.univ.erase 0x00#8 := by
    intro v hv
    obtain ⟨k, -, rfl⟩ := Finset.mem_image.mp hv
    exact Finset.mem_erase.mpr ⟨gfPower_three_ne_zero k, Finset.mem_univ _⟩
  have hall : (Finset.range 255).image (gfPower 0x03#8) = Finset.univ.erase 0x00#8 := by
    refine Finset.eq_of_subset_of_card_le hsub ?_
    rw [Finset.card_erase_of_mem (Finset.mem_univ _), Finset.card_univ, card_byte, Finset.card_image_of_injOn hinj,
      Finset.card_range]
  have hmem : a ∈ (Finset.range 255).image (gfPower 0x03#8) := hall ▸ Finset.mem_erase.mpr ⟨ha, Finset.mem_univ _⟩
  obtain ⟨k, -, hk⟩ := Finset.mem_image.mp hmem
  exact ⟨k, hk⟩

/-! ### Inverses (R83) -/

theorem gfPower_255 {a : Byte} (ha : a ≠ 0x00#8) : gfPower a 255 = 0x01#8 := by
  obtain ⟨k, rfl⟩ := exists_gfPower_three_eq ha
  apply residue_injective
  rw [residue_gfPower, residue_gfPower, ← pow_mul, mul_comm, pow_mul, residue_three_pow_255, one_pow, residue_one]

/-- The power 254 is the inverse, because the power 255 is 1. -/
theorem gfMulb_gfPow254 {a : Byte} (ha : a ≠ 0x00#8) : gfMulb a (gfPow254 a) = 0x01#8 := by
  rw [gfMulb_comm, gfPow254_eq_gfPower]
  exact gfPower_255 ha

theorem gfMulb_gfPow254_cancel_right (a : Byte) {b : Byte} (hb : b ≠ 0x00#8) :
    gfMulb (gfMulb a b) (gfPow254 b) = a := by
  rw [gfMulb_assoc, gfMulb_gfPow254 hb, gfMulb_one]

theorem gfMulb_ne_zero {a b : Byte} (ha : a ≠ 0x00#8) (hb : b ≠ 0x00#8) : gfMulb a b ≠ 0x00#8 := by
  intro hab
  have hcancel := gfMulb_gfPow254_cancel_right a hb
  rw [hab, zero_gfMulb] at hcancel
  exact ha hcancel.symm

theorem gfPow254_ne_zero {a : Byte} (ha : a ≠ 0x00#8) : gfPow254 a ≠ 0x00#8 := by
  intro hzero
  have hone := gfMulb_gfPow254 ha
  rw [hzero, gfMulb_zero] at hone
  exact absurd hone (by decide)

/-- The inverse of the inverse: both `a` and it are the inverse of `gf_pow254(a)`. -/
theorem gfPow254_gfPow254 {a : Byte} (ha : a ≠ 0x00#8) : gfPow254 (gfPow254 a) = a := by
  have hcancel := gfMulb_gfPow254_cancel_right a (gfPow254_ne_zero ha)
  rwa [gfMulb_gfPow254 ha, gfMulb_comm, gfMulb_one] at hcancel

theorem gfPow254_one : gfPow254 0x01#8 = 0x01#8 := by
  rw [← gfMulb_one (gfPow254 0x01#8), gfMulb_comm, gfMulb_gfPow254 (by decide)]

/-- Multiplication by a non-zero byte is undone by multiplication by its inverse. -/
theorem gfMulb_bijective {a : Byte} (ha : a ≠ 0x00#8) : Function.Bijective (gfMulb a) := by
  refine Function.bijective_iff_has_inverse.mpr ⟨gfMulb (gfPow254 a), fun b => ?_, fun b => ?_⟩
  · rw [gfMulb_comm a, gfMulb_comm, gfMulb_gfPow254_cancel_right b ha]
  · rw [← gfMulb_assoc, gfMulb_gfPow254 ha, gfMulb_comm, gfMulb_one]

/-- Settles O26: `gf_mulb` is the product of residue classes, so its laws are those of the quotient ring, and a non-zero
byte has an inverse because it is a power of 0x03. -/
theorem mulbIsFieldMultiplication : Obligations.MulbIsFieldMultiplication :=
  ⟨fun a b => AdjoinRoot.mk_eq_mk.mp ((map_mul _ _ _).trans (residue_gfMulb a b).symm), gfMulb_comm,
    fun a => ⟨gfMulb_zero a, zero_gfMulb a, gfMulb_one a⟩, fun _ _ => gfMulb_ne_zero, fun _ => gfMulb_bijective,
    gfMulb_xor, gfMulb_assoc⟩

/-- Settles O27: square-and-multiply is the power, and a non-zero byte has the power 255 of a power of 0x03, which is 1. -/
theorem pow254IsInverse : Obligations.Pow254IsInverse :=
  ⟨gfPow254_eq_gfPower, fun _ ha => ⟨gfPower_255 ha, gfMulb_gfPow254 ha⟩, gfPow254_zero⟩

end Sys2Proof.Machine
end

section
/-! The table builder's step and the field commands (40_field.md R87 to R95): each command as the response to its result,
the tables read as the field functions once they are built. -/

namespace Sys2Proof.Machine

/-- Settles O11: with READY 0 the step is the builder's, and it leaves the builder's tables. -/
theorem tableBuilderFillsTables : Obligations.TableBuilderFillsTables := by
  intro s hrst hready
  obtain ⟨hmult, hinvt⟩ := State.tablesBuilt_of_built (s := s.buildTables) rfl rfl
  exact ⟨s.buildTables, step_of_notReady hrst hready, hmult, hinvt, (hinvt 0x00#8).trans gfPow254_zero,
    s.ready_buildTables, rfl⟩

/-! ### The response to a result -/

/-- A command that writes nothing and has a result responds OK with it. -/
theorem exec_of_resultOf_eq_some {i : Instr} {s : State} {v : Byte} (hwrite : writtenBy i s = s)
    (hres : resultOf i s = some v) : exec i s = .next { s with cmd := none, rsp := some (0x00#8 ++ v) } := by
  rw [exec_eq_respondResult, hwrite, hres]
  rfl

/-- A command without a result raises DomainError: DOMERR and the response, and nothing else (60_exceptions.md R152). -/
theorem exec_of_resultOf_eq_none {i : Instr} {s : State} (hres : resultOf i s = none) :
    exec i s = .next { s with status := s.status ||| 0x02#8, cmd := none, rsp := some 0x0200#16 } := by
  obtain ⟨-, hwrite⟩ := of_resultOf_eq_none hres
  rw [exec_eq_respondResult, hwrite, hres]
  rfl

theorem exec_add (a b : Byte) (s : State) :
    exec (.add a b) s = .next { s with cmd := none, rsp := some (0x00#8 ++ (a ^^^ b)) } :=
  exec_of_resultOf_eq_some rfl rfl

theorem exec_sub_eq_exec_add (a b : Byte) (s : State) : exec (.sub a b) s = exec (.add a b) s := rfl

/-! ### The table paths (R84 to R86) -/

theorem State.gfInv_of_ne_zero (s : State) {a : Byte} (ha : a ≠ 0x00#8) : s.gfInv a = some (s.memRead .invt a.toNat) :=
  if_neg ha

theorem State.gfDiv_of_ne_zero (s : State) (a : Byte) {b : Byte} (hb : b ≠ 0x00#8) :
    s.gfDiv a b = some (if a = 0x00#8 then 0x00#8 else s.gfMul a (s.memRead .invt b.toNat)) := by
  rw [State.gfDiv, s.gfInv_of_ne_zero hb]

namespace State.TablesBuilt

variable {s : State}

/-- On built tables the selection of the zero result changes nothing (R86): the quotient is the product with the
inverse. -/
theorem gfDiv_eq (h : s.TablesBuilt) (a : Byte) {b : Byte} (hb : b ≠ 0x00#8) :
    s.gfDiv a b = some (gfMulb a (gfPow254 b)) := by
  rw [s.gfDiv_of_ne_zero a hb, h.2 b, h.gfMul_eq]
  split
  · next ha => rw [ha, zero_gfMulb]
  · rfl

theorem exec_mul (h : s.TablesBuilt) (a b : Byte) :
    exec (.mul a b) s = .next { s with cmd := none, rsp := some (0x00#8 ++ gfMulb a b) } :=
  exec_of_resultOf_eq_some rfl (congrArg some (h.gfMul_eq a b))

theorem exec_inv (h : s.TablesBuilt) {a : Byte} (ha : a ≠ 0x00#8) :
    exec (.inv a) s = .next { s with cmd := none, rsp := some (0x00#8 ++ gfPow254 a) } :=
  exec_of_resultOf_eq_some rfl ((h.gfInv_eq a).trans (if_neg ha))

theorem exec_div (h : s.TablesBuilt) (a : Byte) {b : Byte} (hb : b ≠ 0x00#8) :
    exec (.div a b) s = .next { s with cmd := none, rsp := some (0x00#8 ++ gfMulb a (gfPow254 b)) } :=
  exec_of_resultOf_eq_some rfl (h.gfDiv_eq a hb)

end State.TablesBuilt

/-! ### The commands -/

/-- Settles O28: both commands have the result `a ^ b`, and exclusive-or has the corner cases. -/
theorem addSubRespond : Obligations.AddSubRespond := fun a b s =>
  ⟨exec_add a b s, (exec_sub_eq_exec_add a b s).trans (exec_add a b s), rfl, rfl, BitVec.xor_self, BitVec.xor_zero,
    BitVec.xor_comm a b⟩

/-- Settles O29: the result is the table's entry, which on built tables is the product, so the corner cases are laws of
`gf_mulb`. -/
theorem mulRespond : Obligations.MulRespond := by
  intro a b s
  refine ⟨rfl, rfl, fun h => ⟨h.exec_mul a b, ?_, ?_, ?_, ?_, h.exec_mul 0x02#8 0x80#8⟩⟩
  · rw [h.exec_mul, h.exec_mul, gfMulb_comm]
  · rw [h.exec_mul, gfMulb_zero]; rfl
  · rw [h.exec_mul, zero_gfMulb]; rfl
  · rw [h.exec_mul, gfMulb_one]

/-- Settles O30: `gf_inv` has no result exactly at zero, and on built tables it is the inverse, which is its own inverse
function. -/
theorem invRespond : Obligations.InvRespond := by
  intro a s
  refine ⟨exec_of_resultOf_eq_none rfl, fun ha => exec_of_resultOf_eq_some rfl (s.gfInv_of_ne_zero ha), rfl,
    fun h => ⟨?_, fun ha => ?_⟩⟩
  · rw [h.exec_inv (by decide), gfPow254_one]; rfl
  · rw [h.2 a, h.exec_inv (gfPow254_ne_zero ha), gfPow254_gfPow254 ha]
    exact ⟨gfPow254_ne_zero ha, gfMulb_gfPow254 ha, rfl⟩

/-- Settles O31: `gf_div` has no result exactly for a zero divisor, and on built tables it is the product with the
inverse. -/
theorem divRespond : Obligations.DivRespond := by
  intro a b s
  refine ⟨exec_of_resultOf_eq_none rfl, fun hb => exec_of_resultOf_eq_some rfl (s.gfDiv_of_ne_zero a hb), rfl,
    fun h => ⟨fun hb => ?_, ?_, fun ha => ?_⟩⟩
  · rw [h.exec_div _ hb, zero_gfMulb]; rfl
  · rw [h.exec_div _ (by decide), gfPow254_one, gfMulb_one]
  · rw [h.exec_div _ ha, gfMulb_gfPow254 ha]; rfl

/-- Settles O32: the bit paths have the field functions as results, and so do the table paths on built tables. -/
theorem bitPathCommandsRespond : Obligations.BitPathCommandsRespond := by
  intro a b s
  refine ⟨rfl, exec_of_resultOf_eq_none rfl, fun ha => exec_of_resultOf_eq_some rfl (if_neg ha), rfl, rfl,
    fun h => ⟨(h.exec_mul a b).symm, ?_⟩⟩
  have hres : resultOf (.invb a) s = resultOf (.inv a) s := (h.gfInv_eq a).symm
  rw [exec_eq_respondResult, exec_eq_respondResult, hres]
  rfl

/-- Settles O33: the laws of the field functions, read off the responses. -/
theorem fieldLawsOfCommands : Obligations.FieldLawsOfCommands := by
  intro a b s h
  refine ⟨?mulComm, fun ha => ⟨gfPow254 a, h.exec_inv ha, ?mulInv⟩, fun hb => ⟨gfMulb a b, h.exec_mul a b, ?divMul⟩,
    ?addSelf, a ^^^ b, exec_add a b s, ?addAdd⟩
  case mulComm => rw [h.exec_mul, h.exec_mul, gfMulb_comm]
  case mulInv => rw [h.exec_mul, gfMulb_gfPow254 ha]; rfl
  case divMul => rw [h.exec_div _ hb, gfMulb_gfPow254_cancel_right a hb]
  case addSelf => rw [exec_add, BitVec.xor_self]; rfl
  case addAdd => rw [exec_add, BitVec.xor_assoc, BitVec.xor_self, BitVec.xor_zero]

/-! ### The frame of the commands that write nothing -/

/-- The commands that write no state on success (R88 to R94; 41_polymem.md R102, R106 to R109; 42_poly.md R123, R130;
43_system.md R140). -/
def readOnlyCommands (a b : Byte) : List Instr :=
  [.add a b, .sub a b, .mul a b, .inv a, .div a b, .mulb a b, .invb a, .rdc a, .rdx a, .rdy a, .rddeg, .rdns, .eval a,
    .interp a, .rdst]

theorem writtenBy_readOnlyCommands {a b : Byte} {i : Instr} (hi : i ∈ readOnlyCommands a b) (s : State) :
    writtenBy i s = s := by
  simp only [readOnlyCommands, List.mem_cons, List.not_mem_nil, or_false] at hi
  rcases hi with rfl | rfl | rfl | rfl | rfl | rfl | rfl | rfl | rfl | rfl | rfl | rfl | rfl | rfl | rfl <;> rfl

/-- Of the commands that write nothing, four can raise DomainError (60_exceptions.md R153). -/
theorem mem_of_readOnly_resultOf_eq_none {a b : Byte} {i : Instr} {s : State} (hi : i ∈ readOnlyCommands a b)
    (hres : resultOf i s = none) : i ∈ [Instr.inv a, .div a b, .invb a, .interp a] := by
  obtain ⟨⟨a', rfl⟩ | ⟨a', rfl⟩ | ⟨a', b', rfl⟩ | ⟨x, rfl⟩, -⟩ := of_resultOf_eq_none hres <;>
    simpa [readOnlyCommands] using hi

/-- Settles O55: such a command is only a response, or the error, and either touches no register and no space. -/
theorem frameOfReadOnlyCommands : Obligations.FrameOfReadOnlyCommands := by
  intro a b s t i hi hexec
  rw [exec_eq_respondResult, writtenBy_readOnlyCommands hi] at hexec
  cases hexec
  cases hres : resultOf i s with
  | some v => simp
  | none => simp [domerrBit, mem_of_readOnly_resultOf_eq_none hi hres]

end Sys2Proof.Machine
end

section
/-! The polynomial and sample memory commands (41_polymem.md R100 to R110): the whole next state of each, what the
commands that write leave alone, and the entries that nothing has written. -/

namespace Sys2Proof.Machine

/-! ### The registers and the reads -/

/-- A command without a result byte makes its write and responds 0x0000 (30_encoding.md R64). -/
theorem exec_of_resultOf_eq_zero {i : Instr} {s : State} (hres : resultOf i s = some 0x00#8) :
    exec i s = .next { writtenBy i s with cmd := none, rsp := some 0x0000#16 } := by
  rw [exec_eq_respondResult, hres]
  rfl

/-- Settles O34: the setters' write is the register, which is the readers' result. -/
theorem registerCommandsRespond : Obligations.RegisterCommandsRespond := fun _ _ =>
  ⟨exec_of_resultOf_eq_zero rfl, exec_of_resultOf_eq_zero rfl, exec_of_resultOf_eq_some rfl rfl,
    exec_of_resultOf_eq_some rfl rfl, rfl, rfl, rfl, rfl⟩

/-- Settles O36: the result of a read command is the entry, and it writes nothing. -/
theorem readCommandsRespond : Obligations.ReadCommandsRespond := fun _ _ =>
  ⟨exec_of_resultOf_eq_some rfl rfl, exec_of_resultOf_eq_some rfl rfl, exec_of_resultOf_eq_some rfl rfl, rfl, rfl, rfl⟩

/-! ### The commands that write -/

/-- Settles O35: a load's write changes what one entry reads as, and one field of the state. -/
theorem loadCommandsWriteOneEntry : Obligations.LoadCommandsWriteOneEntry := fun k v s =>
  ⟨⟨_, exec_of_resultOf_eq_zero rfl, rfl, s.memRead_writeCoef k.toNat v, rfl⟩,
    ⟨_, exec_of_resultOf_eq_zero rfl, rfl, s.memRead_writeXs k.toNat v, rfl⟩,
    ⟨_, exec_of_resultOf_eq_zero rfl, rfl, s.memRead_writeYs k.toNat v, rfl⟩, rfl, rfl, rfl⟩

@[simp] theorem State.length_liveValues (s : State) : s.liveValues.length = s.ns.toNat := by
  simp [State.liveValues, State.liveCount]

/-- A run of writes to YS leaves the other spaces, and the entries past its end. -/
theorem State.memRead_writeYsRun_of_other (s : State) {vs : List Byte} {S : Space} {j : Nat}
    (h : S ≠ .ys ∨ vs.length ≤ j) : (s.writeYsRun vs).memRead S j = s.memRead S j := by
  rw [State.memRead_writeYsRun]
  rcases h with hS | hlen
  · rw [if_neg hS]
  · rw [List.getElem?_eq_none hlen, Option.getD_none, ite_self]

/-- No command writes a table, a wire, the host's words or the draw in force, whatever its result. -/
theorem frame_of_exec {i : Instr} {s t : State} (hexec : exec i s = .next t) :
    t.mult = s.mult ∧ t.invt = s.invt ∧ t.rst = s.rst ∧ t.rspReady = s.rspReady ∧ t.cmdIn = s.cmdIn ∧
      t.rspOut = s.rspOut ∧ t.epoch = s.epoch := by
  obtain ⟨hmult, hinvt, -, -, -, hrst, hrspReady, hcmdIn, hrspOut, hepoch⟩ := (oneWrite_writtenBy i s).frame
  rw [exec_eq_respondResult] at hexec
  cases hexec
  cases resultOf i s <;> exact ⟨hmult, hinvt, hrst, hrspReady, hcmdIn, hrspOut, hepoch⟩

/-- Settles O56: each command is its write and a response; a write of a register is no write of a space, a load misses
every other index, and `MEVAL`'s run ends at NS. -/
theorem frameOfWritingCommands : Obligations.FrameOfWritingCommands := by
  intro k v s t
  refine ⟨fun h => ?setdeg, fun h => ?setns, fun h => ?ldc, fun h => ?ldx, fun h => ?ldy, fun h => ?meval,
    fun _ _ hexec => frame_of_exec hexec⟩ <;> obtain rfl := eq_respond_of_exec rfl h
  case setdeg => exact ⟨s.memRead_setDeg v, rfl, rfl⟩
  case setns => exact ⟨s.memRead_setNs v, rfl, rfl⟩
  case ldc => exact ⟨fun S j hj => (s.memRead_writeCoef _ v S j).trans (if_neg (not_and_or.mpr hj)), rfl, rfl, rfl⟩
  case ldx => exact ⟨fun S j hj => (s.memRead_writeXs _ v S j).trans (if_neg (not_and_or.mpr hj)), rfl, rfl, rfl⟩
  case ldy => exact ⟨fun S j hj => (s.memRead_writeYs _ v S j).trans (if_neg (not_and_or.mpr hj)), rfl, rfl, rfl⟩
  case meval =>
    refine ⟨fun S j hj => s.memRead_writeYsRun_of_other ?_, rfl, rfl, rfl⟩
    rwa [s.length_liveValues]

/-! ### Entries that nothing has written (R110, 93_implementation_defined.md U3) -/

/-- An entry without a written byte reads as its free byte. -/
theorem State.memRead_of_stored?_eq_none {s : State} {S : Space} {i : Nat} (h : s.stored? S i = none) :
    s.memRead S i = Config.unspecifiedByte S s.epoch i := by
  rw [State.memRead, h, Option.getD_none]

/-- A write erases nothing. -/
theorem Memory.read?_eq_none_of_write {m : Memory} {i j : Nat} {v : Byte} (h : (m.write i v).read? j = none) :
    m.read? j = none := by
  rw [Memory.read?_write] at h
  split at h
  · cases h
  · exact h

theorem Memory.read?_eq_none_of_writeRun {vs : List Byte} {m : Memory} {i j : Nat}
    (h : (m.writeRun i vs).read? j = none) : m.read? j = none := by
  induction vs generalizing m i with
  | nil => exact h
  | cons v vs ih => exact Memory.read?_eq_none_of_write (ih h)

/-- One write erases nothing in the three memories. -/
theorem State.OneWrite.read?_eq_none {s u : State} (hwrite : s.OneWrite u) (j : Nat) :
    (u.coef.read? j = none → s.coef.read? j = none) ∧ (u.xs.read? j = none → s.xs.read? j = none) ∧
      (u.ys.read? j = none → s.ys.read? j = none) := by
  rcases hwrite with rfl | ⟨d, rfl⟩ | ⟨n, rfl⟩ | ⟨k, v, rfl⟩ | ⟨k, v, rfl⟩ | ⟨k, v, rfl⟩ | rfl
  · exact ⟨id, id, id⟩
  · exact ⟨id, id, id⟩
  · exact ⟨id, id, id⟩
  · exact ⟨Memory.read?_eq_none_of_write, id, id⟩
  · exact ⟨id, Memory.read?_eq_none_of_write, id⟩
  · exact ⟨id, id, Memory.read?_eq_none_of_write⟩
  · exact ⟨id, id, Memory.read?_eq_none_of_writeRun⟩

/-- An entry of any space that is unwritten after a command's write was unwritten before it. -/
theorem State.OneWrite.stored?_eq_none {s u : State} (hwrite : s.OneWrite u) {S : Space} {j : Nat}
    (h : u.stored? S j = none) : s.stored? S j = none := by
  obtain ⟨hcoef, hxs, hys⟩ := hwrite.read?_eq_none j
  obtain ⟨hmult, hinvt, -⟩ := hwrite.frame
  cases S with
  | coef => exact hcoef h
  | xs => exact hxs h
  | ys => exact hys h
  | mult => simpa only [State.stored?, hmult] using h
  | invt => simpa only [State.stored?, hinvt] using h

/-- Of the moves with `rst` low none erases an entry of COEF, XS or YS, and none draws anew. -/
theorem State.Move.unwritten {s t : State} (hmove : s.Move t) (hrst : s.rst = false) {S : Space} {j : Nat}
    (hS : S ∈ [Space.coef, .xs, .ys]) (h : t.stored? S j = none) : s.stored? S j = none ∧ t.epoch = s.epoch := by
  cases hmove with
  | reset hrst' => simp [hrst] at hrst'
  | build =>
    simp only [List.mem_cons, List.not_mem_nil, or_false] at hS
    rcases hS with rfl | rfl | rfl <;> exact ⟨h, rfl⟩
  | transfer => exact ⟨h, rfl⟩
  | keep => exact ⟨h, rfl⟩
  | accept => exact ⟨h, rfl⟩
  | complete _ _ _ _ _ hwrite =>
    obtain ⟨-, -, -, -, -, -, -, -, -, hepoch⟩ := hwrite.frame
    exact ⟨hwrite.stored?_eq_none h, hepoch⟩
  | domain => exact ⟨h, rfl⟩
  | illegal => exact ⟨h, rfl⟩

/-- Settles O58: the result of a read of an unwritten entry is its free byte, and a step with `rst` low is a move that
neither erases an entry nor changes the draw that the free byte is from. -/
theorem unwrittenEntriesReadFree : Obligations.UnwrittenEntriesReadFree := by
  refine ⟨fun k s => ⟨fun h => ?_, fun h => ?_, fun h => ?_⟩, fun s t S j hS hrst hstep ht => ?_⟩
  · exact exec_of_resultOf_eq_some rfl (congrArg some (State.memRead_of_stored?_eq_none h))
  · exact exec_of_resultOf_eq_some rfl (congrArg some (State.memRead_of_stored?_eq_none h))
  · exact exec_of_resultOf_eq_some rfl (congrArg some (State.memRead_of_stored?_eq_none h))
  · obtain ⟨hs, hepoch⟩ := (move_of_step hstep).unwritten hrst hS ht
    exact ⟨hs, by rw [State.memRead_of_stored?_eq_none ht, State.memRead_of_stored?_eq_none hs, hepoch]⟩

end Sys2Proof.Machine
end

section
/-! The polynomial functions of the unit (42_poly.md R120, R121, R125): `evaluate` is the plain Horner recurrence, the
value of the polynomial, and what the MAC pipeline's schedule computes at each point. -/

namespace Sys2Proof.Machine

/-! ### What `evaluate` reads (R120) -/

theorem hornerLoop_congr {mul : Byte → Byte → Byte} {c c' : Nat → Byte} (x : Byte) {n : Nat}
    (h : ∀ k, k < n → c' k = c k) (acc : Byte) : hornerLoop mul c' x n acc = hornerLoop mul c x n acc := by
  induction n generalizing acc with
  | zero => rfl
  | succ n ih => rw [hornerLoop, hornerLoop, h n (Nat.lt_succ_self n), ih fun k hk => h k (Nat.lt_succ_of_lt hk)]

/-- The coefficients above the degree are not read (R123). -/
theorem evaluate_congr {mul : Byte → Byte → Byte} {c c' : Nat → Byte} {d : Nat} (x : Byte)
    (h : ∀ k, k ≤ d → c' k = c k) : evaluate mul c' d x = evaluate mul c d x := by
  rw [evaluate, evaluate, h 0 (Nat.zero_le d), h d (Nat.le_refl d),
    hornerLoop_congr x fun k hk => h k (Nat.le_of_lt hk)]

/-- At the point zero, and at the degree zero, no product is computed: the value is the intercept, on any table. -/
theorem evaluate_eq_intercept (mul : Byte → Byte → Byte) (c : Nat → Byte) {d : Nat} {x : Byte}
    (h : x = 0x00#8 ∨ d = 0) : evaluate mul c d x = c 0 := by
  rcases h with rfl | rfl
  · rw [evaluate, if_pos rfl]
  · rw [evaluate, hornerLoop, ite_self]

/-! ### The two short-cuts (R121) -/

/-- A zero coefficient adds nothing, so leaving out its addition changes nothing. -/
theorem hornerLoop_eq_plainHorner (mul : Byte → Byte → Byte) (c : Nat → Byte) (x : Byte) (n : Nat) (acc : Byte) :
    hornerLoop mul c x n acc = plainHorner mul c x n acc := by
  induction n generalizing acc with
  | zero => rfl
  | succ n ih =>
    rw [hornerLoop, plainHorner, ih]
    split
    · next hzero => rw [hzero, BitVec.xor_zero]
    · rfl

/-- At the point zero every product is zero, so the last coefficient added is the value. -/
theorem plainHorner_at_zero (c : Nat → Byte) (n : Nat) (acc : Byte) :
    plainHorner gfMulb c 0x00#8 (n + 1) acc = c 0 := by
  induction n generalizing acc with
  | zero => rw [plainHorner, plainHorner, gfMulb_zero, BitVec.zero_xor]
  | succ n ih => rw [plainHorner, ih]

/-- Settles O39: the loop's short-cut leaves out an addition of zero, and at the point zero the recurrence ends in the
intercept. -/
theorem shortcutsKeepValue : Obligations.ShortcutsKeepValue := by
  intro c d x
  rw [evaluate, hornerLoop_eq_plainHorner]
  split
  · next hzero =>
    cases d with
    | zero => rfl
    | succ d => rw [hzero, plainHorner_at_zero]
  · rfl

/-! ### The value of the polynomial (R120) -/

/-- The recurrence from `acc` on: `acc` times the power of the point, and the remaining coefficients' terms. -/
theorem residue_plainHorner (c : Nat → Byte) (x : Byte) (n : Nat) (acc : Byte) :
    residue (plainHorner gfMulb c x n acc) =
      ∑ k ∈ Finset.range n, residue (c k) * residue x ^ k + residue acc * residue x ^ n := by
  induction n generalizing acc with
  | zero => simp [plainHorner]
  | succ n ih =>
    rw [plainHorner, ih, residue_xor, residue_gfMulb, Finset.sum_range_succ]
    ring

theorem residue_polyValue (c : Nat → Byte) (x : Byte) (d : Nat) :
    residue (polyValue c x d) = ∑ k ∈ Finset.range (d + 1), residue (c k) * residue x ^ k := by
  induction d with
  | zero => simp [polyValue]
  | succ d ih => rw [polyValue, residue_xor, residue_gfMulb, residue_gfPower, ih, Finset.sum_range_succ _ (d + 1)]

/-- Settles O40: the recurrence and the sum term by term stand for one sum of residue classes. -/
theorem evaluateIsPolynomialValue : Obligations.EvaluateIsPolynomialValue := by
  intro c d x
  apply residue_injective
  rw [shortcutsKeepValue, residue_plainHorner, residue_polyValue, Finset.sum_range_succ]

theorem gfPower_one_left (n : Nat) : gfPower 0x01#8 n = 0x01#8 := by
  induction n with
  | zero => rfl
  | succ n ih => rw [gfPower, ih, gfMulb_one]

/-- At the point one the powers are one, and the value is the exclusive-or of the coefficients (R123). -/
theorem evaluate_at_one (c : Nat → Byte) (d : Nat) :
    evaluate gfMulb c d 0x01#8 = (List.range (d + 1)).foldl (fun acc k => acc ^^^ c k) 0x00#8 := by
  rw [evaluateIsPolynomialValue]
  induction d with
  | zero => simp [polyValue]
  | succ d ih => rw [polyValue, ih, gfPower_one_left, gfMulb_one, List.range_succ (n := d + 1), List.foldl_concat]

/-! ### The MAC pipeline (R125) -/

theorem macRound_map (mul : Byte → Byte → Byte) (ci : Byte) (acc : Byte → Byte) (points : List Byte) :
    macRound mul ci points (points.map acc) = points.map fun p => mul (acc p) p ^^^ ci := by
  induction points with
  | nil => rfl
  | cons p points ih => rw [List.map_cons, List.map_cons, macRound, ih]

/-- The rounds run the recurrence in every slot, each with its own point. -/
theorem macRounds_map (mul : Byte → Byte → Byte) (c : Nat → Byte) (points : List Byte) (n : Nat) (acc : Byte → Byte) :
    macRounds mul c points n (points.map acc) = points.map fun p => plainHorner mul c p n (acc p) := by
  induction n generalizing acc with
  | zero => rfl
  | succ n ih =>
    rw [macRounds, macRound_map, ih]
    rfl

/-- The coefficient-major schedule computes the value at each point. -/
theorem macPipeline_eq_map (c : Nat → Byte) (d : Nat) (points : List Byte) :
    macPipeline gfMulb c d points = points.map (evaluate gfMulb c d) := by
  rw [macPipeline, macRounds_map]
  exact List.map_congr_left fun p _ => (shortcutsKeepValue c d p).symm

end Sys2Proof.Machine
end

section
/-! `EVAL` and `MEVAL` (42_poly.md R123 to R126): the response and the lanes, each the value of `evaluate` at one point. -/

namespace Sys2Proof.Machine

/-! ### `EVAL` (R123) -/

/-- On built tables the table path of multiplication is `gf_mulb`. -/
theorem State.TablesBuilt.gfMul_eq_gfMulb {s : State} (h : s.TablesBuilt) : s.gfMul = gfMulb :=
  funext₂ h.gfMul_eq

theorem State.TablesBuilt.evalAt_eq {s : State} (h : s.TablesBuilt) (x : Byte) :
    s.evalAt x = evaluate gfMulb (s.memRead .coef) s.deg.toNat x := by
  rw [State.evalAt, h.gfMul_eq_gfMulb]
  rfl

/-- The value at a point depends on MULT, the coefficients up to DEG, and DEG only (R123, R126). -/
theorem State.evalAt_congr {s s' : State} (hdeg : s'.deg = s.deg) (hmult : s'.mult = s.mult) (hepoch : s'.epoch = s.epoch)
    (hcoef : ∀ k, k ≤ s.deg.toNat → s'.memRead .coef k = s.memRead .coef k) (x : Byte) : s'.evalAt x = s.evalAt x := by
  have hmul : s'.gfMul = s.gfMul := funext₂ (State.gfMul_congr hmult hepoch)
  rw [State.evalAt, State.evalAt, hmul, State.degree, State.degree, hdeg, evaluate_congr x hcoef]

theorem State.evalAt_eq_intercept (s : State) {x : Byte} (h : x = 0x00#8 ∨ s.deg = 0x00#8) :
    s.evalAt x = s.memRead .coef 0 :=
  evaluate_eq_intercept _ _ (h.imp_right (congrArg BitVec.toNat))

theorem exec_eval (x : Byte) (s : State) :
    exec (.eval x) s = .next { s with cmd := none, rsp := some (0x00#8 ++ s.evalAt x) } :=
  exec_of_resultOf_eq_some rfl rfl

/-- Settles O38: the response is the value at the point, which has the corner cases and reads no coefficient above the
degree. -/
theorem evalRespond : Obligations.EvalRespond := by
  intro x s
  refine ⟨exec_eval x s, rfl, fun hx => ?intercept, fun h => ?atOne, fun s' hdeg hmult hepoch hcoef t t' ht ht' => ?above⟩
  case intercept => rw [exec_eval, s.evalAt_eq_intercept hx]
  case atOne => rw [exec_eval, h.evalAt_eq, evaluate_at_one]
  case above =>
    rw [eq_respond_of_exec rfl ht, eq_respond_of_exec rfl ht']
    exact congrArg (fun v => some (rspWord stOk v)) (State.evalAt_congr hdeg hmult hepoch hcoef x)

/-! ### `MEVAL` (R124) -/

/-- `s` after a `MEVAL` that completes. -/
def State.afterMeval (s : State) : State := { s.writeYsRun s.liveValues with cmd := none, rsp := some 0x0000#16 }

theorem exec_meval (s : State) : exec .meval s = .next s.afterMeval := exec_of_resultOf_eq_zero rfl

theorem eq_afterMeval_of_exec {s t : State} (hexec : exec .meval s = .next t) : t = s.afterMeval :=
  Host.Outcome.next.inj (hexec.symm.trans (exec_meval s))

theorem State.liveValues_getElem? (s : State) {j : Nat} (hj : j < s.ns.toNat) :
    s.liveValues[j]? = some (s.evalAt (s.memRead .xs j)) := by
  simp [State.liveValues, State.liveCount, hj]

/-- What `MEVAL` leaves in the spaces: the value at each live point in the point's entry of YS. -/
theorem State.memRead_afterMeval (s : State) (S : Space) (j : Nat) :
    s.afterMeval.memRead S j = if S = .ys ∧ j < s.ns.toNat then s.evalAt (s.memRead .xs j) else s.memRead S j := by
  change (s.writeYsRun s.liveValues).memRead S j = _
  split
  · next h => rw [State.memRead_writeYsRun, if_pos h.1, s.liveValues_getElem? h.2, Option.getD_some]
  · next h =>
    refine s.memRead_writeYsRun_of_other ?_
    rw [s.length_liveValues]
    exact (not_and_or.mp h).imp_right Nat.le_of_not_lt

theorem State.memRead_afterMeval_ys (s : State) {j : Nat} (hj : j < s.ns.toNat) :
    s.afterMeval.memRead .ys j = s.evalAt (s.memRead .xs j) := by
  rw [s.memRead_afterMeval, if_pos ⟨rfl, hj⟩]

/-- `MEVAL` writes none of its own operands. -/
theorem State.memRead_afterMeval_of_ne {S : Space} (s : State) (hS : S ≠ .ys) (j : Nat) :
    s.afterMeval.memRead S j = s.memRead S j := by
  rw [s.memRead_afterMeval, if_neg fun h => hS h.1]

theorem State.evalAt_afterMeval (s : State) (x : Byte) : s.afterMeval.evalAt x = s.evalAt x :=
  State.evalAt_congr rfl rfl rfl (fun k _ => s.memRead_afterMeval_of_ne (by decide) k) x

/-- Settles O41: the lanes hold the values at their points, of which the corner cases are read off. -/
theorem mevalRespond : Obligations.MevalRespond := by
  intro s
  refine ⟨s.afterMeval, exec_meval s, rfl, s.memRead_afterMeval, rfl, fun hns => ?none, fun k hk hx => ?intercept,
    fun j k hj hk hjk => ?equal, rfl⟩
  case none =>
    have hvs : s.liveValues = [] := List.length_eq_zero_iff.mp (by rw [s.length_liveValues, hns]; rfl)
    exact congrArg (s.ys.writeRun 0) hvs
  case intercept => rw [s.memRead_afterMeval_ys hk, s.evalAt_eq_intercept hx]
  case equal => rw [s.memRead_afterMeval_ys hj, s.memRead_afterMeval_ys hk, hjk]

/-! ### Twice is once (R126) -/

/-- Writes of two addresses may be exchanged, on any list of cells. -/
theorem Memory.write_write_comm {m : Memory} {i j : Nat} (hij : i < j) (v w : Byte) :
    (m.write i v).write j w = (m.write j w).write i v := by
  induction m with
  | nil => simp [Memory.write, hij, hij.not_gt, hij.ne']
  | cons c m ih =>
    rcases Nat.lt_trichotomy i c.1 with hi | hi | hi
    · rw [Memory.write, if_pos hi, Memory.write, if_neg hij.not_gt, if_neg hij.ne', Memory.write]
      split
      · simp [Memory.write, hij]
      · split <;> simp [Memory.write, hi, hij]
    · have hj : c.1 < j := hi ▸ hij
      simp [Memory.write, hi, hj.not_gt, hj.ne']
    · have hj : c.1 < j := hi.trans hij
      simp [Memory.write, hi.not_gt, hi.ne', hj.not_gt, hj.ne', ih]

theorem Memory.write_writeRun {m : Memory} {i j : Nat} (hij : i < j) (v : Byte) (vs : List Byte) :
    (m.writeRun j vs).write i v = (m.write i v).writeRun j vs := by
  induction vs generalizing m j with
  | nil => rfl
  | cons w vs ih => rw [Memory.writeRun, Memory.writeRun, ih (by omega), Memory.write_write_comm hij]

/-- Writing a run once more changes nothing: each byte of the second run goes where the first one stands. -/
theorem Memory.writeRun_writeRun_same (m : Memory) (i : Nat) (vs : List Byte) :
    (m.writeRun i vs).writeRun i vs = m.writeRun i vs := by
  induction vs generalizing m i with
  | nil => rfl
  | cons v vs ih =>
    rw [Memory.writeRun, Memory.writeRun, Memory.write_writeRun (by omega), Memory.write_write_same, ih]

theorem State.afterMeval_afterMeval (s : State) : s.afterMeval.afterMeval = s.afterMeval := by
  have hvs : s.afterMeval.liveValues = s.liveValues := by
    simp only [State.liveValues, State.evalAt_afterMeval, s.memRead_afterMeval_of_ne (S := .xs) (by decide)]
    rfl
  rw [State.afterMeval, hvs]
  simp only [State.afterMeval, State.writeYsRun, Memory.writeRun_writeRun_same]

/-- Settles O42: a lane is the value at its point, the run of writes ends at NS, and a second `MEVAL` writes the bytes
that stand there. -/
theorem mevalLanes : Obligations.MevalLanes := by
  refine ⟨fun s s' t t' k hdeg hmult hepoch hcoef hx hk hk' ht ht' => ?_, fun s t k hk ht => ?_, fun s t u ht hu => ?_⟩ <;>
    obtain rfl := eq_afterMeval_of_exec ht
  · obtain rfl := eq_afterMeval_of_exec ht'
    rw [s.memRead_afterMeval_ys hk, s'.memRead_afterMeval_ys hk', hx, State.evalAt_congr hdeg hmult hepoch hcoef]
  · rw [s.memRead_afterMeval, if_neg fun h => hk.not_gt h.2]
  · rw [eq_afterMeval_of_exec hu, s.afterMeval_afterMeval]

/-- Settles O43: on built tables both the lanes and the pipeline's slots hold the values at the points. -/
theorem pipelineComputesMeval : Obligations.PipelineComputesMeval := by
  intro s t h ht
  obtain rfl := eq_afterMeval_of_exec ht
  change _ = macPipeline s.gfMul (s.memRead .coef) s.deg.toNat _
  rw [h.gfMul_eq_gfMulb, macPipeline_eq_map, List.map_map]
  refine List.map_congr_left fun k hk => ?_
  rw [s.memRead_afterMeval_ys (List.mem_range.mp hk), h.evalAt_eq, Function.comp_apply]

end Sys2Proof.Machine
end

section
/-! The bytes as a field (40_field.md R82), over which `interpolate` is Lagrange interpolation (42_poly.md R127 to R133). -/

namespace Sys2Proof.Machine

open Polynomial

/-! ### The residue classes are a field -/

/-- Every residue class is the class of a byte. -/
theorem residue_surjective : Function.Surjective residue := by
  intro z
  induction z using AdjoinRoot.induction_on with | _ p
  induction p using Polynomial.induction_on with
  | C a =>
    obtain rfl | rfl : a = 0 ∨ a = 1 := by revert a; decide
    · exact ⟨0x00#8, by rw [residue_zero, C_0, map_zero]⟩
    · exact ⟨0x01#8, by rw [residue_one, C_1, map_one]⟩
  | add p q hp hq =>
    obtain ⟨a, ha⟩ := hp
    obtain ⟨b, hb⟩ := hq
    exact ⟨a ^^^ b, by rw [residue_xor, ha, hb, map_add]⟩
  | monomial n a h =>
    obtain ⟨v, hv⟩ := h
    exact ⟨xtime v, by rw [residue_xtime, hv, ← AdjoinRoot.mk_X, ← map_mul, pow_succ]; congr 1; ring⟩

theorem residue_eq_zero_iff {v : Byte} : residue v = 0 ↔ v = 0x00#8 := by
  rw [← residue_zero, residue_injective.eq_iff]

/-- Classes without zero divisors: the reduction polynomial is irreducible (R82). -/
theorem irreducible_reductionPoly : Irreducible reductionPoly := by
  refine Prime.irreducible ⟨reductionPoly_monic.ne_zero, fun hunit => ?_, fun p q hpq => ?_⟩
  · have hdegree := degree_eq_zero_of_isUnit hunit
    rw [degree_reductionPoly] at hdegree
    exact absurd hdegree (by decide)
  · obtain ⟨a, ha⟩ := residue_surjective (AdjoinRoot.mk reductionPoly p)
    obtain ⟨b, hb⟩ := residue_surjective (AdjoinRoot.mk reductionPoly q)
    rw [← AdjoinRoot.mk_eq_zero, map_mul, ← ha, ← hb, ← residue_gfMulb, residue_eq_zero_iff] at hpq
    rw [← AdjoinRoot.mk_eq_zero, ← AdjoinRoot.mk_eq_zero, ← ha, ← hb, residue_eq_zero_iff, residue_eq_zero_iff]
    by_contra! hne
    exact gfMulb_ne_zero hne.1 hne.2 hpq

/-! ### The quotient (R86) -/

/-- `gf_div` without the tables (R86). -/
def gfQuotient (a b : Byte) : Option Byte := if b = 0x00#8 then none else some (gfMulb a (gfPow254 b))

theorem gfQuotient_eq_none_iff {a b : Byte} : gfQuotient a b = none ↔ b = 0x00#8 := by
  simp [gfQuotient]

/-- On built tables the table path of division is the product with the inverse. -/
theorem State.TablesBuilt.gfDiv_eq_gfQuotient {s : State} (h : s.TablesBuilt) : s.gfDiv = gfQuotient := by
  funext a b
  rw [gfQuotient]
  split
  · next hb => rw [hb]; rfl
  · next hb => exact h.gfDiv_eq a hb

/-! ### Pass 1: the lowest match (42_poly.md R128) -/

section
variable {mul : Byte → Byte → Byte} {div : Byte → Byte → Option Byte} {skip : Bool} {xs ys : Nat → Byte} {x : Byte}

theorem matchFrom_eq_none {n i : Nat} (hx : ∀ k, i ≤ k → k < i + n → xs k ≠ x) : matchFrom xs ys x n i = none := by
  induction n generalizing i with
  | zero => rfl
  | succ n ih => rw [matchFrom, if_neg (hx i le_rfl (by omega)), ih fun k hik hk => hx k (by omega) (by omega)]

theorem matchFrom_of_lowest {n i k : Nat} (hik : i ≤ k) (hk : k < i + n) (hx : xs k = x)
    (hlow : ∀ j, j < k → xs j ≠ x) : matchFrom xs ys x n i = some (ys k) := by
  induction n generalizing i with
  | zero => omega
  | succ n ih =>
    rw [matchFrom]
    obtain rfl | hlt := hik.eq_or_lt
    · rw [if_pos hx]
    · rw [if_neg (hlow i hlt), ih hlt (by omega)]

/-- Some live x equals the point, and then a lowest one does, or none does. -/
theorem exists_lowest_or (xs : Nat → Byte) (n : Nat) (x : Byte) :
    (∃ k, k < n ∧ xs k = x ∧ ∀ j, j < k → xs j ≠ x) ∨ ∀ k, k < n → xs k ≠ x := by
  by_cases hmatch : ∃ k, k < n ∧ xs k = x
  · obtain ⟨hk, hx⟩ := Nat.find_spec hmatch
    exact .inl ⟨Nat.find hmatch, hk, hx, fun j hj hjx => Nat.find_min hmatch hj ⟨hj.trans hk, hjx⟩⟩
  · exact .inr fun k hk hx => hmatch ⟨k, hk, hx⟩

/-- On a match the value is the lowest matching sample's y, and no term is computed. -/
theorem interpolate_of_lowest {n k : Nat} (hk : k < n) (hx : xs k = x) (hlow : ∀ j, j < k → xs j ≠ x) :
    interpolate mul div skip xs ys n x = some (ys k) := by
  rw [interpolate, if_neg (by omega), matchFrom_of_lowest (Nat.zero_le k) (by omega) hx hlow]

/-- Without a match, and for no samples at all, the value is that of pass 2. -/
theorem interpolate_of_no_match {n : Nat} (hx : ∀ k, k < n → xs k ≠ x) :
    interpolate mul div skip xs ys n x = lagrangeLoop mul div skip xs ys n x n 0 0x00#8 := by
  rw [interpolate, matchFrom_eq_none fun k _ hk => hx k (by omega)]
  cases n <;> rfl

/-! ### Pass 2: the terms that are not skipped (R127, R129) -/

theorem lagrangeLoop_succ (n k i : Nat) (acc : Byte) : lagrangeLoop mul div skip xs ys n x (k + 1) i acc =
    if skip = true ∧ ys i = 0x00#8 then lagrangeLoop mul div skip xs ys n x k (i + 1) acc
    else (lagrangeTerm mul div xs ys n x i).bind fun t => lagrangeLoop mul div skip xs ys n x k (i + 1) (acc ^^^ t) := by
  rw [lagrangeLoop]
  cases lagrangeTerm mul div xs ys n x i <;> simp only [Bool.and_eq_true, beq_iff_eq] <;> rfl

/-- Pass 2 fails exactly when the term of a sample that is not skipped does. -/
theorem lagrangeLoop_eq_none_iff {n k i : Nat} {acc : Byte} : lagrangeLoop mul div skip xs ys n x k i acc = none ↔
    ∃ j, j < k ∧ (skip = true → ys (i + j) ≠ 0x00#8) ∧ lagrangeTerm mul div xs ys n x (i + j) = none := by
  induction k generalizing i acc with
  | zero => simp [lagrangeLoop]
  | succ k ih =>
    rw [lagrangeLoop_succ, Nat.exists_lt_succ_left]
    simp only [Nat.add_zero, ← Nat.add_assoc, Nat.add_right_comm i _ 1]
    split
    · next hskip => rw [ih, or_iff_right fun h => h.1 hskip.1 hskip.2]
    · next hskip =>
      cases hterm : lagrangeTerm mul div xs ys n x i with
      | none => simpa using .inl (not_and.mp hskip)
      | some t => simp [ih]

/-- Where every live y is zero, every term is skipped. -/
theorem lagrangeLoop_of_zeros {n k i : Nat} {acc : Byte} (hys : ∀ j, i ≤ j → j < i + k → ys j = 0x00#8) :
    lagrangeLoop mul div true xs ys n x k i acc = some acc := by
  induction k generalizing i with
  | zero => rfl
  | succ k ih =>
    rw [lagrangeLoop_succ, if_pos ⟨rfl, hys i le_rfl (by omega)⟩, ih fun j hij hj => hys j (by omega) (by omega)]

/-- A skipped term is zero, so skipping it changes no result. -/
theorem lagrangeLoop_skip_of_eq_some {n k i : Nat} {acc r : Byte}
    (h : lagrangeLoop gfMulb div false xs ys n x k i acc = some r) :
    lagrangeLoop gfMulb div true xs ys n x k i acc = some r := by
  induction k generalizing i acc with
  | zero => exact h
  | succ k ih =>
    rw [lagrangeLoop_succ, if_neg (by simp), Option.bind_eq_some_iff] at h
    obtain ⟨t, hterm, hloop⟩ := h
    rw [lagrangeLoop_succ, hterm]
    split
    · next hskip =>
      have ht : t = 0x00#8 := by
        rw [lagrangeTerm, hskip.2] at hterm
        split at hterm
        · cases hterm
        · rw [← Option.some.inj hterm, gfMulb_zero]
      rw [ht, BitVec.xor_zero] at hloop
      exact ih hloop
    · exact ih hloop

/-- A value without the skip is the value with it. -/
theorem interpolate_skip_of_eq_some {n : Nat} {r : Byte} (h : interpolate gfMulb div false xs ys n x = some r) :
    interpolate gfMulb div true xs ys n x = some r := by
  obtain ⟨k, hk, hx, hlow⟩ | hx := exists_lowest_or xs n x
  · rwa [interpolate_of_lowest hk hx hlow] at h ⊢
  · rw [interpolate_of_no_match hx] at h ⊢
    exact lagrangeLoop_skip_of_eq_some h

end

/-! ### The products of a term (R127) -/

/-- Exclusive-or is also the difference (40_field.md R80). -/
theorem residue_xor_eq_sub (a b : Byte) : residue (a ^^^ b) = residue a - residue b := by
  rw [eq_sub_iff_add_eq, ← residue_xor, BitVec.xor_assoc, BitVec.xor_self, BitVec.xor_zero]

theorem residue_productLoop (xs : Nat → Byte) (i : Nat) (v : Byte) (n j : Nat) (acc : Byte) :
    residue (productLoop gfMulb xs i v n j acc) = residue acc *
      ∏ k ∈ Finset.range n, if j + k ≠ i then residue v - residue (xs (j + k)) else 1 := by
  induction n generalizing j acc with
  | zero => simp [productLoop]
  | succ n ih =>
    have hacc : residue (if j = i then acc else gfMulb acc (v ^^^ xs j)) =
        residue acc * if j ≠ i then residue v - residue (xs j) else 1 := by
      by_cases hj : j = i <;> simp [hj, residue_gfMulb, residue_xor_eq_sub]
    simp only [productLoop, ih, hacc, Finset.prod_range_succ', Nat.add_zero, Nat.add_assoc, Nat.add_comm 1]
    ring

theorem residue_basisProduct (xs : Nat → Byte) (n i : Nat) (v : Byte) :
    residue (basisProduct gfMulb xs n i v) = ∏ k ∈ (Finset.range n).erase i, (residue v - residue (xs k)) := by
  rw [basisProduct, residue_productLoop, residue_one, one_mul, ← Finset.filter_ne', Finset.prod_filter]
  simp only [Nat.zero_add]

/-- A product over the other live samples is zero exactly when one of them has the x value. -/
theorem basisProduct_eq_zero_iff {xs : Nat → Byte} {n i : Nat} {v : Byte} :
    basisProduct gfMulb xs n i v = 0x00#8 ↔ ∃ j, j < n ∧ j ≠ i ∧ xs j = v := by
  have := Fact.mk irreducible_reductionPoly
  rw [← residue_eq_zero_iff, residue_basisProduct, Finset.prod_eq_zero_iff]
  simp only [Finset.mem_erase, Finset.mem_range, sub_eq_zero, residue_injective.eq_iff]
  exact exists_congr fun j => ⟨fun ⟨⟨hji, hjn⟩, hv⟩ => ⟨hjn, hji, hv.symm⟩, fun ⟨hjn, hji, hv⟩ => ⟨⟨hji, hjn⟩, hv.symm⟩⟩

/-- A term fails exactly when its sample's x is another live sample's. -/
theorem lagrangeTerm_eq_none_iff {xs ys : Nat → Byte} {n i : Nat} {x : Byte} :
    lagrangeTerm gfMulb gfQuotient xs ys n x i = none ↔ ∃ j, j < n ∧ j ≠ i ∧ xs j = xs i := by
  rw [← basisProduct_eq_zero_iff, ← gfQuotient_eq_none_iff (a := basisProduct gfMulb xs n i x), lagrangeTerm]
  cases gfQuotient (basisProduct gfMulb xs n i x) (basisProduct gfMulb xs n i (xs i)) <;> simp

/-- `interpolate` fails exactly when no live x equals the point and a sample that is not skipped has the x of another
(R131). -/
theorem interpolate_eq_none_iff {skip : Bool} {xs ys : Nat → Byte} {n : Nat} {x : Byte} :
    interpolate gfMulb gfQuotient skip xs ys n x = none ↔ (∀ k, k < n → xs k ≠ x) ∧
      ∃ i, i < n ∧ (skip = true → ys i ≠ 0x00#8) ∧ ∃ j, j < n ∧ j ≠ i ∧ xs j = xs i := by
  obtain ⟨k, hk, hx, hlow⟩ | hx := exists_lowest_or xs n x
  · rw [interpolate_of_lowest hk hx hlow]
    exact iff_of_false (by simp) fun h => h.1 k hk hx
  · rw [interpolate_of_no_match hx, lagrangeLoop_eq_none_iff, and_iff_right hx]
    simp only [Nat.zero_add, lagrangeTerm_eq_none_iff]

/-- For pairwise distinct x values there is a value at every point. -/
theorem exists_interpolate_of_injOn {xs : Nat → Byte} {n : Nat} (hxs : Set.InjOn xs (Finset.range n)) (skip : Bool)
    (ys : Nat → Byte) (x : Byte) : ∃ v, interpolate gfMulb gfQuotient skip xs ys n x = some v := by
  refine Option.ne_none_iff_exists'.mp fun hnone => ?_
  obtain ⟨-, i, hi, -, j, hj, hji, hx⟩ := interpolate_eq_none_iff.mp hnone
  exact hji (hxs (by simpa using hj) (by simpa using hi) hx)

/-! ### Lagrange interpolation (R127, R133) -/

section Lagrange
variable [Fact (Irreducible reductionPoly)] {xs ys : Nat → Byte} {n : Nat} {x : Byte}

theorem residue_gfPow254 (b : Byte) : residue (gfPow254 b) = (residue b)⁻¹ := by
  by_cases hb : b = 0x00#8
  · rw [hb, gfPow254_zero, residue_zero, inv_zero]
  · refine eq_inv_of_mul_eq_one_right ?_
    rw [← residue_gfMulb, gfMulb_gfPow254 hb, residue_one]

/-- The term of a sample is its y times the sample's Lagrange basis polynomial at the point. -/
theorem residue_of_lagrangeTerm {i : Nat} {t : Byte} (h : lagrangeTerm gfMulb gfQuotient xs ys n x i = some t) :
    residue t = residue (ys i) * (Lagrange.basis (Finset.range n) (residue ∘ xs) i).eval (residue x) := by
  rw [lagrangeTerm, gfQuotient] at h
  split at h
  · cases h
  · next q hq =>
    split at hq
    · cases hq
    · obtain rfl := Option.some.inj hq
      rw [← Option.some.inj h, residue_gfMulb, residue_gfMulb, residue_gfPow254, residue_basisProduct,
        residue_basisProduct, Lagrange.basis, eval_prod]
      simp only [Lagrange.basisDivisor, eval_mul, eval_C, eval_sub, eval_X, Finset.prod_mul_distrib, Finset.prod_inv_distrib,
        Function.comp_apply]
      ring

theorem residue_of_lagrangeLoop {k i : Nat} {acc r : Byte}
    (h : lagrangeLoop gfMulb gfQuotient false xs ys n x k i acc = some r) :
    residue r = residue acc + ∑ j ∈ Finset.range k, residue (ys (i + j)) *
      (Lagrange.basis (Finset.range n) (residue ∘ xs) (i + j)).eval (residue x) := by
  induction k generalizing i acc with
  | zero =>
    obtain rfl := Option.some.inj h
    simp
  | succ k ih =>
    rw [lagrangeLoop_succ, if_neg (by simp), Option.bind_eq_some_iff] at h
    obtain ⟨t, hterm, hloop⟩ := h
    rw [ih hloop, residue_xor, residue_of_lagrangeTerm hterm, Finset.sum_range_succ']
    simp only [Nat.add_zero, Nat.add_assoc, Nat.add_comm 1]
    ring

/-- For pairwise distinct x values `interpolate` has the value of the Lagrange polynomial of the samples. -/
theorem residue_of_interpolate {r : Byte} (hxs : Set.InjOn (residue ∘ xs) (Finset.range n))
    (h : interpolate gfMulb gfQuotient false xs ys n x = some r) :
    residue r = (Lagrange.interpolate (Finset.range n) (residue ∘ xs) (residue ∘ ys)).eval (residue x) := by
  obtain ⟨k, hk, rfl, hlow⟩ | hx := exists_lowest_or xs n x
  · rw [interpolate_of_lowest hk rfl hlow] at h
    rw [← Option.some.inj h]
    exact (Lagrange.eval_interpolate_at_node (residue ∘ ys) hxs (Finset.mem_range.mpr hk)).symm
  · rw [interpolate_of_no_match hx] at h
    rw [residue_of_lagrangeLoop h, residue_zero, zero_add, Lagrange.interpolate_apply, eval_finsetSum]
    simp only [Nat.zero_add, eval_mul, eval_C, Function.comp_apply]

/-- `interpolate` recovers the values of every polynomial of degree below `n` that the samples lie on. -/
theorem interpolate_of_eval_eq {f : (AdjoinRoot reductionPoly)[X]} {v : Byte} (hxs : Set.InjOn xs (Finset.range n))
    (hf : f.degree < n) (hys : ∀ k, k < n → f.eval (residue (xs k)) = residue (ys k))
    (hv : f.eval (residue x) = residue v) : interpolate gfMulb gfQuotient false xs ys n x = some v := by
  have hnodes : Set.InjOn (residue ∘ xs) (Finset.range n) := residue_injective.comp_injOn hxs
  obtain ⟨r, hr⟩ := exists_interpolate_of_injOn hxs false ys x
  have hfr : f = Lagrange.interpolate (Finset.range n) (residue ∘ xs) (residue ∘ ys) :=
    Lagrange.eq_interpolate_of_eval_eq _ hnodes (by rwa [Finset.card_range]) fun k hk => hys k (Finset.mem_range.mp hk)
  have hrv : residue r = residue v := by rw [← hv, residue_of_interpolate hnodes hr, hfr]
  rw [hr, residue_injective hrv]

end Lagrange

/-- The polynomial `C[0] + C[1] X + ... + C[d] X^d` (R120). -/
noncomputable def coefPoly (c : Nat → Byte) (d : Nat) : (AdjoinRoot reductionPoly)[X] :=
  ∑ k ∈ Finset.range (d + 1), C (residue (c k)) * X ^ k

theorem eval_coefPoly (c : Nat → Byte) (d : Nat) (x : Byte) :
    (coefPoly c d).eval (residue x) = residue (evaluate gfMulb c d x) := by
  rw [evaluateIsPolynomialValue, residue_polyValue, coefPoly, eval_finsetSum]
  simp only [eval_mul, eval_C, eval_pow, eval_X]

theorem degree_coefPoly_lt (c : Nat → Byte) {d n : Nat} (hd : d < n) : (coefPoly c d).degree < n := by
  refine (degree_lt_iff_coeff_zero _ n).mpr fun m hm => ?_
  rw [coefPoly, finsetSum_coeff]
  refine Finset.sum_eq_zero fun k hk => ?_
  rw [coeff_C_mul_X_pow, if_neg (by have := Finset.mem_range.mp hk; omega)]

/-- Samples on a polynomial of degree below `n` give its value at every point (R133). -/
theorem interpolate_of_evaluate_eq {xs ys c : Nat → Byte} {d n : Nat} (hxs : Set.InjOn xs (Finset.range n)) (hd : d < n)
    (hys : ∀ k, k < n → ys k = evaluate gfMulb c d (xs k)) (x : Byte) :
    interpolate gfMulb gfQuotient true xs ys n x = some (evaluate gfMulb c d x) := by
  have := Fact.mk irreducible_reductionPoly
  refine interpolate_skip_of_eq_some (interpolate_of_eval_eq hxs (degree_coefPoly_lt c hd) (fun k hk => ?_)
    (eval_coefPoly c d x))
  rw [eval_coefPoly, hys k hk]

/-- The samples in another order give the same value (R133). -/
theorem interpolate_of_permuted {xs ys xs' ys' : Nat → Byte} {n : Nat} {p : Nat → Nat} {x v : Byte}
    (hxs : Set.InjOn xs (Finset.range n)) (hmaps : ∀ k, k < n → p k < n)
    (hinj : ∀ j k, j < n → k < n → p j = p k → j = k) (hsamples : ∀ k, k < n → xs' k = xs (p k) ∧ ys' k = ys (p k))
    (h : interpolate gfMulb gfQuotient false xs ys n x = some v) :
    interpolate gfMulb gfQuotient false xs' ys' n x = some v := by
  have := Fact.mk irreducible_reductionPoly
  have hnodes : Set.InjOn (residue ∘ xs) (Finset.range n) := residue_injective.comp_injOn hxs
  have hxs' : Set.InjOn xs' (Finset.range n) := by
    intro j hj k hk hjk
    rw [Finset.coe_range, Set.mem_Iio] at hj hk
    rw [(hsamples j hj).1, (hsamples k hk).1] at hjk
    exact hinj j k hj hk (hxs (by simpa using hmaps j hj) (by simpa using hmaps k hk) hjk)
  refine interpolate_of_eval_eq (f := Lagrange.interpolate (Finset.range n) (residue ∘ xs) (residue ∘ ys)) hxs' ?_
    (fun k hk => ?_) (residue_of_interpolate hnodes h).symm
  · simpa using Lagrange.degree_interpolate_lt (residue ∘ ys) hnodes
  · obtain ⟨hx, hy⟩ := hsamples k hk
    rw [hx, hy]
    exact Lagrange.eval_interpolate_at_node (residue ∘ ys) hnodes (Finset.mem_range.mpr (hmaps k hk))

end Sys2Proof.Machine
end

section
/-! `INTERP` (42_poly.md R127 to R133): its response, when it raises DomainError, and the polynomial it recovers. -/

namespace Sys2Proof.Machine

/-! ### The response (R130) -/

theorem exec_interp_of_some {x v : Byte} {s : State} (h : s.interpAt x = some v) :
    exec (.interp x) s = .next { s with cmd := none, rsp := some (0x00#8 ++ v) } :=
  exec_of_resultOf_eq_some rfl h

theorem exec_interp_of_none {x : Byte} {s : State} (h : s.interpAt x = none) :
    exec (.interp x) s = .next { s with status := s.status ||| 0x02#8, cmd := none, rsp := some 0x0200#16 } :=
  exec_of_resultOf_eq_none h

/-- `INTERP` raises DomainError exactly where `interpolate` fails: an OK response is no ERR_DOMAIN. -/
theorem exec_interp_eq_domain_iff {x : Byte} {s : State} :
    exec (.interp x) s = .next { s with status := s.status ||| 0x02#8, cmd := none, rsp := some 0x0200#16 } ↔
      s.interpAt x = none := by
  refine ⟨fun hexec => ?_, exec_interp_of_none⟩
  cases hres : s.interpAt x with
  | none => rfl
  | some v =>
    have hrsp := congrArg State.rsp (Host.Outcome.next.inj ((exec_interp_of_some hres).symm.trans hexec))
    exact absurd (Option.some.inj hrsp) (rspWord_ok_ne_domain v)

theorem State.interpAt_of_lowest {s : State} {x : Byte} {k : Nat} (hk : k < s.ns.toNat) (hx : s.memRead .xs k = x)
    (hlow : ∀ j, j < k → s.memRead .xs j ≠ x) : s.interpAt x = some (s.memRead .ys k) :=
  interpolate_of_lowest hk hx hlow

/-- Where every live y is zero the value is zero, with a match or without. -/
theorem State.interpAt_of_zeros {s : State} (x : Byte) (hys : ∀ k, k < s.ns.toNat → s.memRead .ys k = 0x00#8) :
    s.interpAt x = some 0x00#8 := by
  obtain ⟨k, hk, hx, hlow⟩ | hx := exists_lowest_or (s.memRead .xs) s.ns.toNat x
  · rw [State.interpAt_of_lowest hk hx hlow, hys k hk]
  · exact (interpolate_of_no_match hx).trans (lagrangeLoop_of_zeros fun j _ hj => hys j (by omega))

/-! ### On built tables -/

theorem State.DistinctXs.injOn {s : State} (h : s.DistinctXs) : Set.InjOn (s.memRead .xs) (Finset.range s.ns.toNat) :=
  fun i hi j hj => h i j (by simpa using hi) (by simpa using hj)

namespace State.TablesBuilt

variable {s : State}

theorem interpAt_eq (h : s.TablesBuilt) (x : Byte) :
    s.interpAt x = interpolate gfMulb gfQuotient true (s.memRead .xs) (s.memRead .ys) s.ns.toNat x := by
  rw [State.interpAt, h.gfMul_eq_gfMulb, h.gfDiv_eq_gfQuotient]
  rfl

/-- `interpolate` fails exactly in the case of R131. -/
theorem interpAt_eq_none_iff (h : s.TablesBuilt) (x : Byte) : s.interpAt x = none ↔ s.RepeatCase x := by
  rw [h.interpAt_eq, interpolate_eq_none_iff]
  exact ⟨fun ⟨hx, i, hi, hy, hj⟩ => ⟨by omega, hx, i, hi, hy rfl, hj⟩,
    fun ⟨_, hx, i, hi, hy, hj⟩ => ⟨hx, i, hi, fun _ => hy, hj⟩⟩

theorem interpAt_of_evaluate_eq (h : s.TablesBuilt) (hxs : s.DistinctXs) {c : Nat → Byte} {d : Nat} (hd : d < s.ns.toNat)
    (hys : ∀ k, k < s.ns.toNat → s.memRead .ys k = evaluate gfMulb c d (s.memRead .xs k)) (x : Byte) :
    s.interpAt x = some (evaluate gfMulb c d x) := by
  rw [h.interpAt_eq, interpolate_of_evaluate_eq hxs.injOn hd hys]

/-- One sample gives its y at every point (R133 (a)): it lies on a constant. -/
theorem interpAt_of_one (h : s.TablesBuilt) (hns : s.ns = 0x01#8) (x : Byte) : s.interpAt x = some (s.memRead .ys 0) := by
  have hone : s.ns.toNat = 1 := congrArg BitVec.toNat hns
  rw [h.interpAt_of_evaluate_eq (c := fun _ => s.memRead .ys 0) (d := 0) (fun i j hi hj _ => by omega) (by omega)
    (fun k hk => ?_), evaluate_eq_intercept _ _ (.inr rfl)]
  rw [evaluate_eq_intercept _ _ (.inr rfl), show k = 0 by omega]

end State.TablesBuilt

/-! ### The commands -/

/-- Settles O44: the response is the value or the error, `interpolate` fails in the case of R131 only, and the corner cases
are values. -/
theorem interpRespond : Obligations.InterpRespond := by
  intro x s
  refine ⟨?outcome, rfl, fun h hcase => ?ok, fun h hcase => exec_interp_of_none ((h.interpAt_eq_none_iff x).mpr hcase),
    fun k hk hx hlow => exec_interp_of_some (State.interpAt_of_lowest hk hx hlow), fun hns => ?none,
    fun h hns => exec_interp_of_some (h.interpAt_of_one hns x), fun hys => exec_interp_of_some (s.interpAt_of_zeros x hys)⟩
  case outcome =>
    split
    · next v hres => exact exec_interp_of_some hres
    · next hres => exact exec_interp_of_none hres
  case ok =>
    obtain ⟨v, hv⟩ := Option.ne_none_iff_exists'.mp (mt (h.interpAt_eq_none_iff x).mp hcase)
    exact ⟨v, exec_interp_of_some hv⟩
  case none => exact exec_interp_of_some (s.interpAt_of_zeros x fun k hk => absurd hk (by simp [hns]))

/-- Settles O45: pass 1 answers before any product is computed, and a numerator is zero only at a live x. -/
theorem exactMatchComesFirst : Obligations.ExactMatchComesFirst := by
  refine fun x s => ⟨fun k hk hx hlow => exec_interp_of_some (State.interpAt_of_lowest hk hx hlow),
    fun h hx i _ hzero => ?_⟩
  rw [h.gfMul_eq_gfMulb] at hzero
  obtain ⟨j, hj, -, hjx⟩ := basisProduct_eq_zero_iff.mp hzero
  exact hx j hj hjx

/-- Settles O46: a value without the skip is the value with it, and for distinct x values there is one; without a value,
the failing samples were all skipped. -/
theorem zeroTermSkip : Obligations.ZeroTermSkip := by
  refine ⟨rfl, fun x s h => ?_⟩
  rw [h.gfMul_eq_gfMulb, h.gfDiv_eq_gfQuotient]
  intro value
  have hskip (r : Byte) (hr : value false = some r) : value true = value false :=
    (interpolate_skip_of_eq_some hr).trans hr.symm
  refine ⟨fun hxs => ?_, fun hne => ?_⟩
  · obtain ⟨r, hr⟩ := exists_interpolate_of_injOn hxs.injOn false (s.memRead .ys) x
    exact hskip r hr
  · have hfalse : value false = none := Option.eq_none_iff_forall_ne_some.mpr fun r hr => hne (hskip r hr)
    obtain ⟨hx, i, hi, -, hrepeat⟩ := interpolate_eq_none_iff.mp hfalse
    refine ⟨hfalse, i, hi, ?_, hrepeat⟩
    by_contra hy
    exact hne ((interpolate_eq_none_iff.mpr ⟨hx, i, hi, fun _ => hy, hrepeat⟩ : value true = none).trans hfalse.symm)

/-- Settles O47: DomainError is the failure of `interpolate`. -/
theorem interpDomainErrorExactly : Obligations.InterpDomainErrorExactly := fun x _ h =>
  exec_interp_eq_domain_iff.trans (h.interpAt_eq_none_iff x)

/-- Settles O48: Lagrange interpolation recovers the polynomial. -/
theorem interpRecoversPolynomial : Obligations.InterpRecoversPolynomial := fun _ _ x _ h hxs hd hys =>
  exec_interp_of_some (h.interpAt_of_evaluate_eq hxs hd hys x)

/-- Settles O49: after `MEVAL` the samples lie on the polynomial of COEF. -/
theorem splitThenCombine : Obligations.SplitThenCombine := by
  intro s t h hxs hd hmeval
  obtain rfl := eq_afterMeval_of_exec hmeval
  have ht : s.afterMeval.TablesBuilt := h.congr rfl rfl rfl
  have hxs' : s.afterMeval.DistinctXs := hxs
  have hinterp (x : Byte) : s.afterMeval.interpAt x = some (s.evalAt x) := by
    rw [h.evalAt_eq]
    refine ht.interpAt_of_evaluate_eq hxs' hd (fun k hk => ?_) x
    rw [s.memRead_afterMeval_ys hk, h.evalAt_eq]
    rfl
  refine ⟨fun x => ?_, ?_⟩
  · rw [exec_interp_of_some (hinterp x), exec_eval, s.evalAt_afterMeval]
  · rw [exec_interp_of_some (hinterp 0x00#8), s.evalAt_eq_intercept (.inl rfl)]

/-- Settles O50: the same samples in another order have the same Lagrange polynomial. -/
theorem sampleOrderIrrelevant : Obligations.SampleOrderIrrelevant := by
  intro p x s s' t t' h h' hxs hns hmaps hinj hsamples ht ht'
  obtain ⟨v, hv⟩ := exists_interpolate_of_injOn hxs.injOn false (s.memRead .ys) x
  have hs : s.interpAt x = some v := (h.interpAt_eq x).trans (interpolate_skip_of_eq_some hv)
  have hs' : s'.interpAt x = some v := by
    rw [h'.interpAt_eq, hns]
    exact interpolate_skip_of_eq_some (interpolate_of_permuted hxs.injOn hmaps hinj hsamples hv)
  rw [eq_respond_of_exec (i := .interp x) hs ht, eq_respond_of_exec (i := .interp x) hs' ht']
  rfl

end Sys2Proof.Machine
end

section
/-! `RDST` (43_system.md R140): the byte it responds with, flag by flag (10_state.md R29), and its response. -/

namespace Sys2Proof.Machine

/-- STATUS reads as its three flags in bits 2:0, below five zeros (R29): the mask keeps a bit exactly where a flag is. -/
theorem State.statusByte_eq_flags (s : State) :
    s.statusByte = 0#5 ++ BitVec.ofBool s.illerr ++ BitVec.ofBool s.domerr ++ BitVec.ofBool s.ready := by
  refine BitVec.eq_of_getLsbD_eq fun i hi => ?_
  simp only [State.statusByte, State.illerr, State.domerr, State.ready, BitVec.getLsbD_and, BitVec.getLsbD_append]
  interval_cases i <;> simp [statusMask]

/-- A ready unit's STATUS reads as one of the four settings of its two sticky flags. -/
theorem State.statusByte_mem_of_ready {s : State} (hready : s.ready = true) :
    s.statusByte ∈ [0x01#8, 0x03#8, 0x05#8, 0x07#8] := by
  rw [s.statusByte_eq_flags, hready]
  cases s.illerr <;> cases s.domerr <;> decide

theorem exec_rdst (s : State) :
    exec .rdst s = .next { s with cmd := none, rsp := some (0x00#8 ++ s.statusByte) } :=
  exec_of_resultOf_eq_some rfl rfl

/-- Settles O51: `RDST` responds with the byte STATUS reads as, which is its flags, and one of four values on a ready
unit. -/
theorem rdstRespond : Obligations.RdstRespond := fun s =>
  ⟨s.statusByte_eq_flags ▸ exec_rdst s, rfl, fun hready =>
    ⟨s.statusByte, State.statusByte_mem_of_ready hready, exec_rdst s⟩⟩

end Sys2Proof.Machine
end

section
/-! The outcomes of commands and of words, the errors and what they change, and the host's moves (60_exceptions.md R151 to
R156, R166, R167). -/

namespace Sys2Proof.Machine

/-! ### The host's moves (R167) -/

/-- The invariant speaks neither of the pins nor of the words yet to be accepted. -/
theorem State.Inv.withHostWires {s : State} (h : s.Inv) (rst rspReady : Bool) (cmdIn : List CmdWord) :
    ({ s with rst := rst, rspReady := rspReady, cmdIn := cmdIn } : State).Inv where
  coefWf := h.coefWf
  xsWf := h.xsWf
  ysWf := h.ysWf
  reserved := h.reserved
  tables := fun hready => (h.tables hready).congr rfl rfl rfl
  fresh := h.fresh
  oneInFlight := h.oneInFlight
  legalRsp := h.legalRsp
  legalOut := h.legalOut
  latched := h.latched

/-- Settles O19: a host move changes only what the invariant does not speak of. -/
theorem hostMovesKeepInvariant : Obligations.HostMovesKeepInvariant := by
  intro s m h
  cases m with
  | present w => exact h.withHostWires s.rst s.rspReady (s.cmdIn ++ [w])
  | driveRspReady level => exact h.withHostWires s.rst level s.cmdIn
  | driveRst level => exact h.withHostWires level s.rspReady s.cmdIn

/-! ### The outcome of a command (R153) -/

theorem State.gfInv_eq_none_iff {s : State} {a : Byte} : s.gfInv a = none ↔ a = 0x00#8 := by
  simp [State.gfInv]

/-- The division has no result exactly where the inverse of its divisor has none (40_field.md R86). -/
theorem State.gfDiv_eq_none_iff {s : State} {a b : Byte} : s.gfDiv a b = none ↔ b = 0x00#8 := by
  rw [← State.gfInv_eq_none_iff (s := s) (a := b), State.gfDiv]
  cases s.gfInv b <;> simp

/-- On built tables the commands without a result are those of R153's table, each in its case. -/
theorem State.TablesBuilt.resultOf_eq_none_iff {s : State} (h : s.TablesBuilt) (i : Instr) :
    resultOf i s = none ↔ s.DomainCase i := by
  cases i
  case inv a => exact State.gfInv_eq_none_iff
  case invb a =>
    have hres : resultOf (.invb a) s = s.gfInv a := (h.gfInv_eq a).symm
    rw [hres]
    exact State.gfInv_eq_none_iff
  case div a b => exact State.gfDiv_eq_none_iff
  case interp x => exact h.interpAt_eq_none_iff x
  all_goals exact iff_of_false (Option.some_ne_none _) id

/-- Settles O52: a command answers ERR_DOMAIN exactly without a result, which is its case of R153's table. -/
theorem outcomeOfEachCommand : Obligations.OutcomeOfEachCommand := by
  intro i s h
  refine ⟨_, exec_eq_respondResult i s, fun hcase => ?domain, fun hcase => ?ok⟩
  case domain =>
    rw [(h.resultOf_eq_none_iff i).mpr hcase]
    rfl
  case ok =>
    obtain ⟨v, hv⟩ := Option.ne_none_iff_exists'.mp (mt (h.resultOf_eq_none_iff i).mp hcase)
    exact ⟨v, by rw [hv]; rfl⟩

/-! ### The errors of the executor's move (R151, R152, R155, R156) -/

/-- Everything the executor's move can make of a word: an OK response, or one of the two errors. -/
theorem executed_cases (w : CmdWord) (s : State) :
    (∃ u data, executed w s = State.respond stOk data u) ∨ executed w s = s.raiseDomain ∨
      executed w s = s.raiseIllegal := by
  cases hdec : decode w with
  | error e => exact .inr (.inr (executed_of_error hdec s))
  | ok i =>
    rw [executed_of_ok hdec]
    cases hres : resultOf i s with
    | some v => exact .inl ⟨writtenBy i s, v, rfl⟩
    | none =>
      obtain ⟨-, hwritten⟩ := of_resultOf_eq_none hres
      exact .inr (.inl (by rw [hwritten]; rfl))

/-- Settles O53: the response tells the three outcomes of the executor's move apart, and an error is its flag and its
response. -/
theorem errorsChangeOnlyTheirFlag : Obligations.ErrorsChangeOnlyTheirFlag := by
  intro s t hrst hready hrsp hcmd hstep
  obtain ⟨w, hw⟩ := Option.isSome_iff_exists.mp hcmd
  cases (step_of_cmd hrst hready hrsp hw).symm.trans hstep
  obtain ⟨u, data, hok⟩ | hdomain | hillegal := executed_cases w s
  · rw [hok]
    exact ⟨fun h => absurd (Option.some.inj h) (rspWord_ok_ne_domain data),
      fun h => absurd (Option.some.inj h) (rspWord_ok_ne_illegal data)⟩
  · rw [hdomain]
    exact ⟨fun _ => rfl, fun h => absurd (Option.some.inj h) (by decide)⟩
  · rw [hillegal]
    exact ⟨fun h => absurd (Option.some.inj h) (by decide), fun _ => rfl⟩

/-- Settles O54: the word does not decode (its reserved `B` is non-zero), so no command is executed. -/
theorem illegalBeforeDomain : Obligations.IllegalBeforeDomain := by
  intro s hrst hready hrsp hcmd
  have hdec : decode 0x04000100#32 = .error .reservedB := by decide
  exact ⟨s.raiseIllegal, step_of_illegal hrst hready hrsp hcmd hdec, congrArg some rspWord_illegal, s.illerr_setIllerr,
    s.domerr_setIllerr⟩

/-! ### Between commands (R166) -/

/-- Settles O15: with nothing in flight and nothing presented, no agent has a move. -/
theorem idleKeepsState : Obligations.IdleKeepsState := by
  intro s hrst hready hcmd hrsp hcmdIn
  refine ⟨s.cmdReady_iff.mpr ⟨hready, hcmd, hrsp, hrst⟩, ?_⟩
  simp only [step, State.phase_of_quiet hrst hready hrsp hcmd hcmdIn]

end Sys2Proof.Machine
end

section
/-! Every step answers, and what the unit does while READY is 0 (60_exceptions.md R150, R157; 70_reset_and_hazards.md R182,
R183). -/

namespace Sys2Proof.Machine

/-! ### Progress (R150, R157) -/

/-- Whatever the turn, the step answers: the executor's turn with the command's response or an error response, every
other turn with the move of its agent. -/
theorem exists_step_eq_next (s : State) : ∃ t, step s = .next t := by
  rcases step_cases s with ⟨-, hreset⟩ | ⟨-, -, hbuild⟩ | ⟨-, -, r, -, -, htransfer⟩ | ⟨-, -, -, -, hwait⟩ |
    ⟨hrst, hready, hrsp, w, hcmd, -⟩ | ⟨-, -, -, -, w, rest, -, haccept⟩ | ⟨-, -, -, -, -, hidle⟩
  · exact ⟨_, hreset⟩
  · exact ⟨_, hbuild⟩
  · exact ⟨_, htransfer⟩
  · exact ⟨_, hwait⟩
  · exact ⟨executed w s, step_of_cmd hrst hready hrsp hcmd⟩
  · exact ⟨_, haccept⟩
  · exact ⟨_, hidle⟩

/-- Settles O22: each turn has a move, and the executor's move is total on words, legal or not. -/
theorem stepAlwaysAnswers : Obligations.StepAlwaysAnswers := exists_step_eq_next

/-! ### The hold before READY (R183) -/

theorem State.cmdReady_of_notReady {s : State} (hready : s.ready = false) : s.cmdReady = false := by
  simp [State.cmdReady, hready]

/-- Settles O12: before READY the step is the reset's or, with `rst` low, the builder's, and neither moves a word of the
host. -/
theorem commandsHeldBeforeReady : Obligations.CommandsHeldBeforeReady := by
  intro s hready
  refine ⟨State.cmdReady_of_notReady hready, ?_⟩
  cases hrst : s.rst with
  | true => exact ⟨s.takeReset, step_of_rst hrst, rfl, rfl, nofun⟩
  | false =>
    exact ⟨s.buildTables, step_of_notReady hrst hready, rfl, rfl, fun _ =>
      ⟨s.ready_buildTables, s.domerr_buildTables, s.illerr_buildTables, rfl, rfl, rfl, rfl, rfl, rfl, rfl⟩⟩

end Sys2Proof.Machine
end
